-- ==== Sys2Proof/Word.lean ====
section
/-! DEFINITION. The word types of the block: every datum is a byte or narrower, a host access is a 17-bit word and an
event a 10-bit word (spec/30_encoding.md R80, R81). -/

namespace Sys2Proof

/-- A byte: 8 bits, unsigned (00_scope.md R10). Also the eight line levels and the line mask (10_state.md R28). -/
abbrev Byte := BitVec 8

/-- A cursor of a line buffer, 7 bits (10_state.md R22, R26). -/
abbrev Cursor := BitVec 7

/-- The host word `we, addr, data` of format H (30_encoding.md R80). -/
abbrev HostWord := BitVec 17

/-- The event word `kind, data` of format EV (30_encoding.md R81). -/
abbrev EventWord := BitVec 10

/-- A bit as a byte, zero-extended: `zext_8` of 00_scope.md R10. -/
abbrev bitByte (b : Bool) : Byte := (BitVec.ofBool b).setWidth 8

end Sys2Proof
end

