-- ==== Sys2Proof/Config.lean ====
section
/-! DEFINITION. What an instance of the block fixes (spec/00_scope.md R8, R9): the fixed parameters as numerals, the open
parameters as data inside their constraints, and the free values the spec leaves open, as opaque constants with no body. -/

namespace Sys2Proof

/-- The four primitives of the one-wire bus (10_state.md R32); each selects a row of the timing table. -/
inductive Prim where
  | reset
  | write0
  | write1
  | read
deriving DecidableEq, Repr, Inhabited

/-- RD_COMBINE of 00_scope.md R8: how a read sample over several targeted lines becomes one bit (42_onewire_primitives.md
R148). -/
inductive Combine where
  | anyHigh
  | allHigh
deriving DecidableEq, Repr, Inhabited

/-- The two line buffers (20_memory.md R60). -/
inductive Buffer where
  | input
  | output
deriving DecidableEq, Repr, Inhabited

/-- One count of ticks for each primitive. -/
structure PerPrim where
  reset  : Nat
  write0 : Nat
  write1 : Nat
  read   : Nat
deriving DecidableEq, Repr, Inhabited

/-- The timing parameters of 00_scope.md R8, in ticks: T_DRV, T_REL, T_SMP of RESET and of READ, T_GAP. -/
structure Timing where
  drive       : PerPrim
  release     : PerPrim
  sampleReset : Nat
  sampleRead  : Nat
  gap         : Nat
deriving DecidableEq, Repr, Inhabited

/-- The constraints of 00_scope.md R8: every drive, release and gap time at least 1, every sample time below its release
time. -/
def Timing.legal (t : Timing) : Bool :=
  decide (1 ≤ t.drive.reset) && decide (1 ≤ t.drive.write0) && decide (1 ≤ t.drive.write1) && decide (1 ≤ t.drive.read) &&
  decide (1 ≤ t.release.reset) && decide (1 ≤ t.release.write0) && decide (1 ≤ t.release.write1) &&
  decide (1 ≤ t.release.read) && decide (t.sampleReset < t.release.reset) && decide (t.sampleRead < t.release.read) &&
  decide (1 ≤ t.gap)

/-- The open parameters of an instance. The field `legal` carries the constraints of 00_scope.md R8, so that an instance
outside them, to which 70_reset_and_hazards.md R259 gives no meaning, cannot be built. -/
structure Params where
  endMark   : Byte
  rdCombine : Combine
  timing    : Timing
  legal     : timing.legal = true
deriving DecidableEq, Repr

namespace Config

/-- CAP of 00_scope.md R8: the capacity in bytes of each line buffer. -/
def cap : Nat := 128

/-- TERM of 00_scope.md R8: the line terminator, newline. PRESUMED by the spec itself (93_implementation_defined.md G1);
log 17. -/
def term : Byte := 0x0A#8

/-- The index at which a line that found no terminator ends, capacity minus 1 (40_transport_receive.md R100). -/
def lastIndex : Cursor := 127#7

/-- END_MARK of 00_scope.md R8: open. Free value (log 3). -/
opaque endMark : Byte

/-- RD_COMBINE of 00_scope.md R8: open. Free value (log 3). -/
opaque rdCombine : Combine

/-- One less than T_DRV: any natural number, so that T_DRV is any number from 1. Free value (log 3). -/
opaque driveLessOne : Prim → Nat

/-- One less than T_REL. Free value (log 3). -/
opaque releaseLessOne : Prim → Nat

/-- A number whose remainder by T_REL is T_SMP: any number below T_REL. Free value (log 3). -/
opaque sampleDraw : Prim → Nat

/-- One less than T_GAP. Free value (log 3). -/
opaque gapLessOne : Nat

/-- F_CLK of 00_scope.md R8, in Hz: open, and read by no rule (00_scope.md R6; log 15). -/
opaque fClk : Nat

/-- The byte a buffer holds at an index nothing has written since reset number `epoch`: any value, fixed once drawn
(10_state.md R48, 93_implementation_defined.md U1). Free value (log 4). -/
opaque unwritten : Buffer → (epoch : Nat) → (index : Nat) → Byte

/-- `h_rdata` in tick number `tick`, where the tick holds no read (93_implementation_defined.md U7). Free value (log 6). -/
opaque openRdata : (tick : Nat) → Byte

/-- `tx_data` in tick number `tick`, where `tx_wr` is 0 (93_implementation_defined.md U8). Free value (log 6). -/
opaque openTxData : (tick : Nat) → Byte

/-- The timing of the instance: every legal timing is a possible value, and no other. -/
def timing : Timing where
  drive := ⟨driveLessOne .reset + 1, driveLessOne .write0 + 1, driveLessOne .write1 + 1, driveLessOne .read + 1⟩
  release := ⟨releaseLessOne .reset + 1, releaseLessOne .write0 + 1, releaseLessOne .write1 + 1, releaseLessOne .read + 1⟩
  sampleReset := sampleDraw .reset % (releaseLessOne .reset + 1)
  sampleRead := sampleDraw .read % (releaseLessOne .read + 1)
  gap := gapLessOne + 1

/-- The free timing meets the constraints of 00_scope.md R8. -/
theorem timing_legal : timing.legal = true := by
  have below : ∀ a b : Nat, a % (b + 1) ≤ b := fun a b => Nat.le_of_lt_succ (Nat.mod_lt a (Nat.succ_pos b))
  simp [Timing.legal, timing, below]

/-- The parameters of the instance (00_scope.md R8), free inside their constraints (log 3). -/
def params : Params where
  endMark := endMark
  rdCombine := rdCombine
  timing := timing
  legal := timing_legal

end Config

/-- The calibration windows of 00_scope.md R9, with `us(x) = x * F_CLK / 1e6` multiplied out: advice to whoever calibrates
an instance, read by no rule of the block (log 15). -/
def Timing.inWindows (t : Timing) (fClk : Nat) : Bool :=
  decide (480 * fClk ≤ t.drive.reset * 1000000) && decide (t.drive.reset * 1000000 ≤ 560 * fClk) &&
  decide (fClk ≤ t.drive.write1 * 1000000) && decide (t.drive.write1 * 1000000 ≤ 15 * fClk) &&
  decide (fClk ≤ t.drive.read * 1000000) && decide (t.drive.read * 1000000 ≤ 15 * fClk) &&
  decide ((t.drive.write0 + t.release.write0) * 1000000 ≤ 60 * fClk) &&
  decide ((t.drive.write1 + t.release.write1) * 1000000 ≤ 60 * fClk) &&
  decide ((t.drive.read + t.release.read) * 1000000 ≤ 60 * fClk)

/-- The ordering constraint the spec adds in 00_scope.md R9: a write-0 holds the line low longer than a write-1. Advice as
well (93_implementation_defined.md G3). -/
def Timing.write0Longer (t : Timing) : Bool := decide (t.drive.write1 < t.drive.write0)

end Sys2Proof
end

