-- ==== Sys2Proof/Syntax.lean ====
section
/-! DEFINITION. The operations of the block: one constructor of `Instr` for each row of spec/opcode_table.json
(spec/30_encoding.md R85), and the two forms of word that name them. -/

namespace Sys2Proof

/-- What one tick can be asked to do: 20 host operations, 2 transceiver events, 2 reserved classes (30_encoding.md R85). -/
inductive Instr where
  /-- OW.RESET: reset pulse and presence detect (R144). -/
  | owReset
  /-- OW.WRITE0: the write-0 primitive (R145). -/
  | owWrite0
  /-- OW.WRITE1: the write-1 primitive (R146). -/
  | owWrite1
  /-- OW.READBIT: the read-bit primitive (R147). -/
  | owReadbit
  /-- OW.SENDBYTE: send OW_DATA, least significant bit first (R170). -/
  | owSendbyte
  /-- OW.RECVBYTE: read eight bits into OW_DATA (R171). -/
  | owRecvbyte
  /-- OW.SETMASK m: choose the lines the next command targets (R190). -/
  | owSetmask (m : Byte)
  /-- OW.SETDATA d: load the byte to send (R192). -/
  | owSetdata (d : Byte)
  /-- TP.ACK: clear the line-ready flag (R102). -/
  | tpAck
  /-- TP.ARM: re-arm reception (R103). -/
  | tpArm
  /-- TP.ACKARM: both at once (R104). -/
  | tpAckarm
  /-- TP.PUSH b: append a byte to the output line (R120, R121). -/
  | tpPush (b : Byte)
  /-- TP.RDBUF i: read a byte of the input line buffer (R105). -/
  | tpRdbuf (i : BitVec 7)
  /-- OW.GETCMD: read the command register (R198). -/
  | owGetcmd
  /-- OW.GETMASK: read the mask register (R191). -/
  | owGetmask
  /-- OW.GETDATA: read the data register (R193). -/
  | owGetdata
  /-- OW.GETSTAT: read the one-wire status (R194). -/
  | owGetstat
  /-- TP.GETSTAT: read the transport status (R195). -/
  | tpGetstat
  /-- TP.GETINCUR: read the input cursor (R196). -/
  | tpGetincur
  /-- TP.GETOUTCUR: read the output cursor (R197). -/
  | tpGetoutcur
  /-- RX.EVENT b: the transceiver offers a received byte (R100, R101). -/
  | rxEvent (b : Byte)
  /-- TX.DONE: the transceiver reports transmit-complete (R122, R123). -/
  | txDone
  /-- RSVD.W: a write word no named row selects (R199). -/
  | rsvdW (addr data : Byte)
  /-- RSVD.R: a read word no named row selects (R199). -/
  | rsvdR (addr : Byte)
deriving DecidableEq, Repr

/-- The word a tick's action is named by: a host word (30_encoding.md R80) or an event word (R81). -/
inductive OpWord where
  | host (w : HostWord)
  | event (w : EventWord)
deriving DecidableEq, Repr

/-- The operation is an event action, named by an event word, not a host operation (30_encoding.md R85, column fmt). -/
def Instr.isEvent : Instr → Bool
  | .owReset | .owWrite0 | .owWrite1 | .owReadbit | .owSendbyte | .owRecvbyte => false
  | .owSetmask _ | .owSetdata _ | .tpAck | .tpArm | .tpAckarm | .tpPush _ | .tpRdbuf _ => false
  | .owGetcmd | .owGetmask | .owGetdata | .owGetstat | .tpGetstat | .tpGetincur | .tpGetoutcur => false
  | .rxEvent _ | .txDone => true
  | .rsvdW _ _ | .rsvdR _ => false

/-- The word is an event word. -/
def OpWord.isEvent : OpWord → Bool
  | .host _ => false
  | .event _ => true

end Sys2Proof
end

