-- ==== Sys2Proof/Machine/State.lean ====
section
/-! DEFINITION. The state of the block (spec/10_state.md R20 to R37), the ports of a tick (R45), the ways a step can stop,
and the state after reset (R48). -/

namespace Sys2Proof.Machine

/-- OW_PHASE (10_state.md R30): where in a primitive the engine stands. -/
inductive Phase where
  | idle
  | drive
  | release
  | gap
deriving DecidableEq, Repr, Inhabited

/-- OW_OP (10_state.md R31): the command in execution or last executed. -/
inductive OwOp where
  | noCommand
  | reset
  | write0
  | write1
  | readbit
  | sendbyte
  | recvbyte
deriving DecidableEq, Repr, Inhabited

/-- The input ports of one tick (10_state.md R45). `hAddr` and `hWdata` are read only with `hReq`, `rxData` only with
`rxValid`, `owIn` only at a sample tick (93_implementation_defined.md U8, U13). -/
structure Input where
  /-- `rst`: reset, sampled in every tick. -/
  rst      : Bool
  /-- `h_req`: the host makes an access in this tick. -/
  hReq     : Bool
  /-- `h_we`: the access is a write. -/
  hWe      : Bool
  /-- `h_addr`. -/
  hAddr    : Byte
  /-- `h_wdata`. -/
  hWdata   : Byte
  /-- `rx_valid`: the transceiver offers a received byte. -/
  rxValid  : Bool
  /-- `rx_data`. -/
  rxData   : Byte
  /-- `txc_valid`: the transceiver reports transmit-complete. -/
  txcValid : Bool
  /-- `ow_in`: the level of each one-wire line, 1 = high. -/
  owIn     : Byte
deriving DecidableEq, Repr, Inhabited

end Sys2Proof.Machine

namespace Sys2Proof

/-- What the environment does when the listed inputs are used up: a draw per tick, anything at all (10_state.md R46 XCVR-1,
92_eei_decisions.md "Open parameters, gathered"). Free value (log 1). -/
opaque Config.environment : (tick : Nat) → Machine.Input

end Sys2Proof

namespace Sys2Proof.Machine

/-- The output ports of one tick (10_state.md R45). -/
structure Ports where
  /-- `h_rdata`: read data, defined in a tick with a host read, else any value (93_implementation_defined.md U7). -/
  hRdata       : Byte
  /-- `rx_ready`: an offered byte is taken in this tick. -/
  rxReady      : Bool
  /-- `tx_wr`: a byte is loaded into the transceiver's data register in this tick. -/
  txWr         : Bool
  /-- `tx_data`: that byte; any value where `tx_wr` is 0 (93_implementation_defined.md U8). -/
  txData       : Byte
  /-- `txc_ready`: a transmit-complete report is taken in this tick. -/
  txcReady     : Bool
  /-- `ow_oe`: 1 = the line is driven low. -/
  owOe         : Byte
  /-- `ev_suspend`: OW_CRIT. -/
  evSuspend    : Bool
  /-- `irq_line_ready`: IN_READY. -/
  irqLineReady : Bool
  /-- `ow_busy`: OW_BUSY. -/
  owBusy       : Bool
  /-- `ow_present`: OW_PRESENT. -/
  owPresent    : Bool
deriving DecidableEq, Repr

/-- A line buffer: the bytes written since reset, as (index, byte) pairs with strictly rising indices below 128. An unlisted
index reads as a free value (10_state.md R48; log 4, log 5). -/
abbrev Memory := List Host.Cell

/-- The state of the block. The first seventeen fields are the elements of 10_state.md R20; the last five are the model's
own (INVENTORY.md, State). -/
structure State where
  /-- IN_BUF (R21). -/
  inBuf     : Memory
  /-- IN_CUR (R22). -/
  inCur     : Cursor
  /-- IN_READY (R23). -/
  inReady   : Bool
  /-- RX_EN (R24). -/
  rxEn      : Bool
  /-- OUT_BUF (R25). -/
  outBuf    : Memory
  /-- OUT_CUR (R26). -/
  outCur    : Cursor
  /-- TX_EN (R27). -/
  txEn      : Bool
  /-- OW_MASK (R28). -/
  owMask    : Byte
  /-- OW_DATA (R29). -/
  owData    : Byte
  /-- OW_PHASE (R30). -/
  owPhase   : Phase
  /-- OW_OP (R31). -/
  owOp      : OwOp
  /-- OW_PRIM (R32). -/
  owPrim    : Prim
  /-- OW_CNT (R33): a natural number, never wraps. -/
  owCnt     : Nat
  /-- OW_BITN (R34). -/
  owBitn    : BitVec 4
  /-- OW_LMASK (R35). -/
  owLmask   : Byte
  /-- OW_PRESENT (R36). -/
  owPresent : Bool
  /-- OW_RDBIT (R37). -/
  owRdbit   : Bool
  /-- The parameters of the instance (00_scope.md R8), constant. Model's own field: 10_state.md R49 says the parameters are
  not state (log 3). -/
  params    : Params
  /-- What the output ports showed in the tick just done. Model's own field (log 7). -/
  out       : Ports
  /-- The environment's inputs of the coming ticks. Model's own field (log 1). -/
  inputs    : List Input
  /-- The number of ticks done, which free values and draws are applied to. Model's own field (log 6). -/
  tick      : Nat
  /-- The number of resets done, which the unspecified buffer bytes are drawn for. Model's own field (log 4). -/
  epoch     : Nat
deriving DecidableEq, Repr

/-- The ways a step can stop with a fault: NONE. "The block raises no synchronous exception ... A model's step function for
this block is total and returns no fault value" (60_exceptions.md R220). Nothing raises one; safe. -/
inductive Fault where
deriving DecidableEq, Repr

/-- The ways a word can be refused. -/
inductive Refusal where
  /-- An arm of `exec` without a meaning. No arm is left so; safe. -/
  | notModelled (mnemonic : String)
  /-- An event word of kind 0b00 or 0b11: "not events and are never produced" (30_encoding.md R81). Raised by `step` if the
  word it selected is one; it never makes one (R224), so this is never reached; safe. -/
  | notAnEvent (kind : BitVec 2)
deriving DecidableEq, Repr

/-- The outputs after reset (10_state.md R48, row "outputs"). `h_rdata` and `tx_data` have no value there: free values
(93_implementation_defined.md U7, U8; log 6). -/
def Ports.reset : Ports where
  hRdata := Config.openRdata 0
  rxReady := false
  txWr := false
  txData := Config.openTxData 0
  txcReady := false
  owOe := 0x00#8
  evSuspend := false
  irqLineReady := false
  owBusy := false
  owPresent := false

/-- The state after reset (10_state.md R48). Both buffers list nothing: every byte is unspecified. -/
def State.reset : State where
  inBuf := []
  inCur := 0#7
  inReady := false
  rxEn := false
  outBuf := []
  outCur := 0#7
  txEn := false
  owMask := 0x00#8
  owData := 0x00#8
  owPhase := .idle
  owOp := .noCommand
  owPrim := .reset
  owCnt := 0
  owBitn := 0#4
  owLmask := 0x00#8
  owPresent := false
  owRdbit := false
  params := Config.params
  out := Ports.reset
  inputs := []
  tick := 0
  epoch := 0

end Sys2Proof.Machine
end

