-- ==== Sys2Proof/Machine/Flags.lean ====
section
/-! DEFINITION. Every one-bit condition of the block (spec/10_state.md R38, R39, spec/42_onewire_primitives.md R148, R149),
the handshake outputs (R45) and the status bytes assembled from them (R40, R41). -/

namespace Sys2Proof.Machine

/-- OW_BUSY (10_state.md R38). -/
def Phase.busy : Phase → Bool
  | .idle => false
  | .drive => true
  | .release => true
  | .gap => true

/-- OW_CRIT (10_state.md R38): the critical section. -/
def Phase.crit : Phase → Bool
  | .idle => false
  | .drive => true
  | .release => true
  | .gap => false

/-- OW_OE (10_state.md R38): the targeted lines in phase DRIVE, none in any other. -/
def State.owOe (s : State) : Byte :=
  match s.owPhase with
  | .drive => s.owLmask
  | .idle | .release | .gap => 0x00#8

/-- The state's part of "a receive event occurs" (40_transport_receive.md R101): receive events enabled, no line unread, no
critical section. -/
def State.rxOpen (s : State) : Bool := s.rxEn && !s.inReady && !s.owPhase.crit

/-- The state's part of "a transmit-complete event occurs" (41_transport_transmit.md R123). -/
def State.txOpen (s : State) : Bool := s.txEn && !s.owPhase.crit

/-- `rx_ready` (10_state.md R45; 0 in a reset tick, 70_reset_and_hazards.md R250). -/
def State.rxReady (s : State) (i : Input) : Bool := s.rxOpen && !i.hReq && !i.rst

/-- `txc_ready` (10_state.md R45; 0 in a reset tick, 70_reset_and_hazards.md R250). -/
def State.txcReady (s : State) (i : Input) : Bool :=
  s.txOpen && !i.hReq && !(i.rxValid && s.rxReady i) && !i.rst

/-- `rdbit` (42_onewire_primitives.md R148), for the levels `v` and the latched mask `m`. -/
def rdbit (c : Combine) (v m : Byte) : Bool :=
  match c with
  | .anyHigh => v &&& m != 0x00#8
  | .allHigh => v &&& m == m

/-- `present` (42_onewire_primitives.md R149): some line is targeted and every targeted line is low. -/
def present (v m : Byte) : Bool := m != 0x00#8 && v &&& m == 0x00#8

/-- The byte OW_STAT reads as (10_state.md R40, 44_host_access.md R194): BITN, RDBIT, PRESENT, CRIT, BUSY. -/
def State.owStat (s : State) : Byte :=
  s.owBitn ++ (BitVec.ofBool s.owRdbit ++ (BitVec.ofBool s.owPresent ++
    (BitVec.ofBool s.owPhase.crit ++ BitVec.ofBool s.owPhase.busy)))

/-- The byte TP_STAT reads as (10_state.md R41, 44_host_access.md R195): five zeros, TX_EN, RX_EN, IN_READY. -/
def State.tpStat (s : State) : Byte :=
  0b00000#5 ++ (BitVec.ofBool s.txEn ++ (BitVec.ofBool s.rxEn ++ BitVec.ofBool s.inReady))

end Sys2Proof.Machine
end

