-- ==== Sys2Proof/Machine/Operands.lean ====
section
/-! DEFINITION. The implicit operands of the operations: the row of the timing table a primitive selects (spec/00_scope.md
R8), the opcode OW_OP is held as (spec/30_encoding.md R83), the primitive of a slot (spec/42_onewire_primitives.md R140,
spec/43_onewire_bytes.md R172), the shifted accumulator (R171). -/

namespace Sys2Proof

/-- A count of the timing table, by primitive. -/
def ticksOf (t : PerPrim) : Prim → Nat
  | .reset => t.reset
  | .write0 => t.write0
  | .write1 => t.write1
  | .read => t.read

/-- `T_DRV[p]` (00_scope.md R8). -/
def Params.tDrv (p : Params) (q : Prim) : Nat := ticksOf p.timing.drive q

/-- `T_REL[p]` (00_scope.md R8). -/
def Params.tRel (p : Params) (q : Prim) : Nat := ticksOf p.timing.release q

/-- `T_SMP[p]` (00_scope.md R8), for the two primitives that sample (42_onewire_primitives.md R142). -/
def Params.tSmp (p : Params) : Prim → Option Nat
  | .reset => some p.timing.sampleReset
  | .read => some p.timing.sampleRead
  | .write0 => none
  | .write1 => none

/-- `T_GAP` (00_scope.md R8). -/
def Params.tGap (p : Params) : Nat := p.timing.gap

end Sys2Proof

namespace Sys2Proof.Machine

/-- The 3-bit opcode OW_OP is held as (10_state.md R31, 30_encoding.md R83). -/
def OwOp.code : OwOp → BitVec 3
  | .noCommand => 0#3
  | .reset => 1#3
  | .write0 => 2#3
  | .write1 => 3#3
  | .readbit => 4#3
  | .sendbyte => 5#3
  | .recvbyte => 6#3

/-- The command runs eight primitives (43_onewire_bytes.md R170, R171). -/
def OwOp.isByteOp : OwOp → Bool
  | .sendbyte => true
  | .recvbyte => true
  | .noCommand | .reset | .write0 | .write1 | .readbit => false

/-- The write primitive that sends one bit: "WRITE1 if the bit is 1 else WRITE0" (43_onewire_bytes.md R170). -/
def writePrim (bit : Bool) : Prim := if bit then .write1 else .write0

/-- `first_prim` (42_onewire_primitives.md R140), which for SENDBYTE reads `OW_DATA[0]`. A write of opcode 0x00 is never
accepted, so `noCommand` has no first primitive; the reset value stands there. -/
def firstPrim (data : Byte) : OwOp → Prim
  | .noCommand => .reset
  | .reset => .reset
  | .write0 => .write0
  | .write1 => .write1
  | .readbit => .read
  | .recvbyte => .read
  | .sendbyte => writePrim (data.getLsbD 0)

/-- The primitive of the slot after a gap (43_onewire_bytes.md R172). Bits of the data byte above bit 7 do not exist and are
never selected in a run (10_state.md R47 INV-6); they read 0 here (log 12). -/
def slotPrim (op : OwOp) (data : Byte) (bitn : BitVec 4) : Prim :=
  match op with
  | .sendbyte => writePrim (data.getLsbD bitn.toNat)
  | .noCommand | .reset | .write0 | .write1 | .readbit | .recvbyte => .read

/-- The accumulator after a sample: shift right by one, the sampled bit enters bit 7 (43_onewire_bytes.md R171). -/
def shiftIn (bit : Bool) (data : Byte) : Byte := BitVec.ofBool bit ++ data.extractLsb' 1 7

end Sys2Proof.Machine
end

