-- ==== Sys2Proof/Machine/Ops.lean ====
section
/-! DEFINITION. The named operations over the buffers and the registers that the meanings share. The block has no exception
to take and none to return from (spec/60_exceptions.md R220, R225, R226), so no such operation stands here. -/

namespace Sys2Proof.Machine

/-! ## A line buffer -/

/-- The byte written last at an index, or none where nothing was written since reset. -/
def Memory.find (m : Memory) (a : Nat) : Option Byte :=
  match m with
  | [] => none
  | c :: rest => if c.1 = a then some c.2 else Memory.find rest a

/-- Write one byte, keeping the indices strictly rising. -/
def Memory.put (m : Memory) (a : Nat) (v : Byte) : Memory :=
  match m with
  | [] => [(a, v)]
  | c :: rest =>
    if a < c.1 then (a, v) :: c :: rest
    else if a = c.1 then (a, v) :: rest
    else c :: Memory.put rest a v

/-- Every index of the list is above `lo`, strictly rising, and below the capacity. -/
def Memory.risesFrom (lo : Nat) (m : Memory) : Bool :=
  match m with
  | [] => true
  | c :: rest => decide (lo ≤ c.1) && decide (c.1 < Config.cap) && Memory.risesFrom (c.1 + 1) rest

/-- The canonical form of a line buffer: indices strictly rising and below 128. An unlisted index reads as a free value, which
no listed byte is known to equal (log 5). -/
def Memory.wf (m : Memory) : Bool := Memory.risesFrom 0 m

/-- What an unlisted index reads as: a free value, fixed once drawn for this reset, buffer and index (10_state.md R48;
log 4). -/
def readOr (b : Buffer) (epoch : Nat) (m : Memory) (a : Nat) : Byte :=
  match m.find a with
  | some v => v
  | none => Config.unwritten b epoch a

/-- `IN_BUF[i]` (20_memory.md R60). -/
def State.inByte (s : State) (i : Nat) : Byte := readOr .input s.epoch s.inBuf i

/-- `OUT_BUF[i]` (20_memory.md R60). -/
def State.outByte (s : State) (i : Nat) : Byte := readOr .output s.epoch s.outBuf i

/-- `IN_BUF[i] <- v`. -/
def State.storeIn (s : State) (i : Nat) (v : Byte) : State := { s with inBuf := s.inBuf.put i v }

/-- `OUT_BUF[i] <- v`. -/
def State.storeOut (s : State) (i : Nat) (v : Byte) : State := { s with outBuf := s.outBuf.put i v }

/-! ## The ports an action drives -/

/-- The result of a host read: `h_rdata` in this tick (20_memory.md R61). -/
def State.answer (s : State) (v : Byte) : State := { s with out := { s.out with hRdata := v } }

/-- `emit TxByte(v)` (00_scope.md R11): `tx_wr = 1` and `tx_data = v` in this tick. -/
def State.emit (s : State) (v : Byte) : State := { s with out := { s.out with txWr := true, txData := v } }

/-! ## The transport's shared steps -/

/-- `IN_CUR <- c`. -/
def State.setInCur (s : State) (c : Cursor) : State := { s with inCur := c }

/-- `OUT_CUR <- c`. -/
def State.setOutCur (s : State) (c : Cursor) : State := { s with outCur := c }

/-- The end of an input line (40_transport_receive.md R100): the end mark at index `c`, cursor 0, line ready, reception
disabled. -/
def State.endInputLine (s : State) (c : Cursor) : State :=
  { s with inBuf := s.inBuf.put c.toNat s.params.endMark, inCur := 0#7, inReady := true, rxEn := false }

/-- `start_tx` (41_transport_transmit.md R120), after the action's writes to the buffer: cursor 0, transmit events enabled,
the first byte of the line emitted. -/
def State.startTx (s : State) : State := { s with outCur := 0#7, txEn := true }.emit (s.outByte 0)

/-! ## The sequencer's counter and command acceptance -/

/-- `OW_CNT <- OW_CNT + 1` (42_onewire_primitives.md R141, R142). -/
def State.count (s : State) : State := { s with owCnt := s.owCnt + 1 }


/-- `Accept(op)` (42_onewire_primitives.md R140). -/
def State.accept (s : State) (op : OwOp) : State :=
  { s with
    owOp := op
    owLmask := s.owMask
    owBitn := 0#4
    owCnt := 0
    owPrim := firstPrim s.owData op
    owPhase := .drive }

/-- A write of a defined opcode to OW_CMD: accepted in phase IDLE, ignored in every other (42_onewire_primitives.md R140). -/
def State.command (s : State) (op : OwOp) : State :=
  match s.owPhase with
  | .idle => s.accept op
  | .drive | .release | .gap => s

end Sys2Proof.Machine
end

