-- ==== Sys2Proof/Machine/HostAccess.lean ====
section
/-! DEFINITION. The host register operations (spec/44_host_access.md R190 to R199): the mask and the data byte, the status
reads, the reserved accesses. -/

namespace Sys2Proof.Machine

/-- OW.SETMASK m (R190): `OW_MASK <- m` in phase IDLE, ignored in every other. -/
def execOwSetmask (m : Byte) (s : State) : Host.Outcome State Fault Refusal :=
  match s.owPhase with
  | .idle => .next { s with owMask := m }
  | .drive | .release | .gap => .next s

/-- OW.SETDATA d (R192): `OW_DATA <- d` in phase IDLE, ignored in every other. -/
def execOwSetdata (d : Byte) (s : State) : Host.Outcome State Fault Refusal :=
  match s.owPhase with
  | .idle => .next { s with owData := d }
  | .drive | .release | .gap => .next s

/-- OW.GETCMD (R198): `result = zext_8(OW_OP)`. -/
def execOwGetcmd (s : State) : Host.Outcome State Fault Refusal := .next (s.answer (s.owOp.code.setWidth 8))

/-- OW.GETMASK (R191): `result = OW_MASK`. -/
def execOwGetmask (s : State) : Host.Outcome State Fault Refusal := .next (s.answer s.owMask)

/-- OW.GETDATA (R193): `result = OW_DATA`. -/
def execOwGetdata (s : State) : Host.Outcome State Fault Refusal := .next (s.answer s.owData)

/-- OW.GETSTAT (R194): the one-wire status byte. -/
def execOwGetstat (s : State) : Host.Outcome State Fault Refusal := .next (s.answer s.owStat)

/-- TP.GETSTAT (R195): the transport status byte. -/
def execTpGetstat (s : State) : Host.Outcome State Fault Refusal := .next (s.answer s.tpStat)

/-- TP.GETINCUR (R196): `result = zext_8(IN_CUR)`. -/
def execTpGetincur (s : State) : Host.Outcome State Fault Refusal := .next (s.answer (s.inCur.setWidth 8))

/-- TP.GETOUTCUR (R197): `result = zext_8(OUT_CUR)`. -/
def execTpGetoutcur (s : State) : Host.Outcome State Fault Refusal := .next (s.answer (s.outCur.setWidth 8))

/-- RSVD.W (R199): ignored. -/
def execRsvdW (_addr _data : Byte) (s : State) : Host.Outcome State Fault Refusal := .next s

/-- RSVD.R (R199): `result = 0x00`. -/
def execRsvdR (_addr : Byte) (s : State) : Host.Outcome State Fault Refusal := .next (s.answer 0x00#8)

end Sys2Proof.Machine
end

