-- ==== Sys2Proof/Machine/OneWire.lean ====
section
/-! DEFINITION. The six one-wire commands (spec/42_onewire_primitives.md R144 to R147, spec/43_onewire_bytes.md R170, R171).
The meaning of a command is its acceptance (R140); the ticks that follow are the sequencer's (Sys2Proof/Machine/Sequencer.lean). -/

namespace Sys2Proof.Machine

/-- OW.RESET (R144): `Accept(RESET)` if idle, else ignored. -/
def execOwReset (s : State) : Host.Outcome State Fault Refusal := .next (s.command .reset)

/-- OW.WRITE0 (R145): `Accept(WRITE0)` if idle, else ignored. -/
def execOwWrite0 (s : State) : Host.Outcome State Fault Refusal := .next (s.command .write0)

/-- OW.WRITE1 (R146): `Accept(WRITE1)` if idle, else ignored. -/
def execOwWrite1 (s : State) : Host.Outcome State Fault Refusal := .next (s.command .write1)

/-- OW.READBIT (R147): `Accept(READBIT)` if idle, else ignored. -/
def execOwReadbit (s : State) : Host.Outcome State Fault Refusal := .next (s.command .readbit)

/-- OW.SENDBYTE (R170): `Accept(SENDBYTE)` if idle, else ignored. -/
def execOwSendbyte (s : State) : Host.Outcome State Fault Refusal := .next (s.command .sendbyte)

/-- OW.RECVBYTE (R171): `Accept(RECVBYTE)` if idle, else ignored. -/
def execOwRecvbyte (s : State) : Host.Outcome State Fault Refusal := .next (s.command .recvbyte)

end Sys2Proof.Machine
end

