-- ==== Sys2Proof/Machine/Transport.lean ====
section
/-! DEFINITION. The Serial Transport Framer: the receive side (spec/40_transport_receive.md R100 to R105) and the transmit side
(spec/41_transport_transmit.md R120 to R123). -/

namespace Sys2Proof.Machine

/-- `RxEvent(b)` (40_transport_receive.md R100). The cursor is a 7-bit register; that its increment stays below 128 is
10_state.md R47 INV-1 (log 11). -/
def State.receive (s : State) (b : Byte) : State :=
  if s.inCur + 1#7 = Config.lastIndex ∨ b = Config.term then
    (s.storeIn s.inCur.toNat b).endInputLine (s.inCur + 1#7)
  else (s.storeIn s.inCur.toNat b).setInCur (s.inCur + 1#7)

/-- RX.EVENT b: the byte is taken where R101 lets a receive event occur; in any other state "an offered byte is not taken, the
state does not change on its account" (R101; log 10). -/
def execRxEvent (b : Byte) (s : State) : Host.Outcome State Fault Refusal :=
  .next (if s.rxOpen then s.receive b else s)

/-- TP.ACK (R102): `IN_READY <- 0`. -/
def execTpAck (s : State) : Host.Outcome State Fault Refusal := .next { s with inReady := false }

/-- TP.ARM (R103): `RX_EN <- 1`. -/
def execTpArm (s : State) : Host.Outcome State Fault Refusal := .next { s with rxEn := true }

/-- TP.ACKARM (R104): both in one action. -/
def execTpAckarm (s : State) : Host.Outcome State Fault Refusal := .next { s with inReady := false, rxEn := true }

/-- TP.RDBUF i (R105): `result = IN_BUF[i]`; no state changes. -/
def execTpRdbuf (i : BitVec 7) (s : State) : Host.Outcome State Fault Refusal := .next (s.answer (s.inByte i.toNat))

/-- `TpPush(b)` with `TX_EN = 0` (41_transport_transmit.md R120): store the byte; start sending at the terminator, and at the
127th byte with a terminator forced behind it. -/
def State.push (s : State) (b : Byte) : State :=
  if b = Config.term then (s.storeOut s.outCur.toNat b).startTx
  else if s.outCur + 1#7 = Config.lastIndex then
    ((s.storeOut s.outCur.toNat b).storeOut Config.lastIndex.toNat Config.term).startTx
  else (s.storeOut s.outCur.toNat b).setOutCur (s.outCur + 1#7)

/-- TP.PUSH b: dropped while a line is being sent (R121), else R120. -/
def execTpPush (b : Byte) (s : State) : Host.Outcome State Fault Refusal :=
  .next (if s.txEn then s else s.push b)

/-- `TxDone()` (41_transport_transmit.md R122): the next byte of the line, or the end of the line after its terminator. -/
def State.sendNext (s : State) : State :=
  if s.outByte s.outCur.toNat ≠ Config.term ∧ s.outCur ≠ Config.lastIndex then
    (s.setOutCur (s.outCur + 1#7)).emit (s.outByte (s.outCur.toNat + 1))
  else { s with outCur := 0#7, txEn := false, rxEn := true }

/-- TX.DONE: the report is taken where R123 lets a transmit-complete event occur; in any other state it stays pending in the
transceiver and nothing changes (R123; log 10). -/
def execTxDone (s : State) : Host.Outcome State Fault Refusal :=
  .next (if s.txOpen then s.sendNext else s)

end Sys2Proof.Machine
end

