-- ==== Sys2Proof/Machine/Dispatch.lean ====
section
/-! DEFINITION. `apply(A, S)` of spec/00_scope.md R7: the one action of a tick, one arm per operation. -/

namespace Sys2Proof.Machine

def exec (i : Instr) (s : State) : Host.Outcome State Fault Refusal :=
  match i with
  | .owReset => Sys2Proof.Machine.execOwReset s
  | .owWrite0 => Sys2Proof.Machine.execOwWrite0 s
  | .owWrite1 => Sys2Proof.Machine.execOwWrite1 s
  | .owReadbit => Sys2Proof.Machine.execOwReadbit s
  | .owSendbyte => Sys2Proof.Machine.execOwSendbyte s
  | .owRecvbyte => Sys2Proof.Machine.execOwRecvbyte s
  | .owSetmask m => Sys2Proof.Machine.execOwSetmask m s
  | .owSetdata d => Sys2Proof.Machine.execOwSetdata d s
  | .tpAck => Sys2Proof.Machine.execTpAck s
  | .tpArm => Sys2Proof.Machine.execTpArm s
  | .tpAckarm => Sys2Proof.Machine.execTpAckarm s
  | .tpPush b => Sys2Proof.Machine.execTpPush b s
  | .tpRdbuf n => Sys2Proof.Machine.execTpRdbuf n s
  | .owGetcmd => Sys2Proof.Machine.execOwGetcmd s
  | .owGetmask => Sys2Proof.Machine.execOwGetmask s
  | .owGetdata => Sys2Proof.Machine.execOwGetdata s
  | .owGetstat => Sys2Proof.Machine.execOwGetstat s
  | .tpGetstat => Sys2Proof.Machine.execTpGetstat s
  | .tpGetincur => Sys2Proof.Machine.execTpGetincur s
  | .tpGetoutcur => Sys2Proof.Machine.execTpGetoutcur s
  | .rxEvent b => Sys2Proof.Machine.execRxEvent b s
  | .txDone => Sys2Proof.Machine.execTxDone s
  | .rsvdW addr data => Sys2Proof.Machine.execRsvdW addr data s
  | .rsvdR addr => Sys2Proof.Machine.execRsvdR addr s

end Sys2Proof.Machine
end

