-- ==== Sys2Proof/Machine/Sequencer.lean ====
section
/-! DEFINITION. The sequencer tick of the One-Wire Master engine (spec/42_onewire_primitives.md R141 to R143,
spec/43_onewire_bytes.md R171, R172). -/

namespace Sys2Proof.Machine

/-- The sample of a release tick (R142): RESET writes OW_PRESENT; READ writes OW_RDBIT and, inside OW.RECVBYTE, shifts the bit
into OW_DATA. -/
def State.takeSample (s : State) (v : Byte) : State :=
  match s.owPrim with
  | .reset => { s with owPresent := present v s.owLmask }
  | .read =>
    let bit := rdbit s.params.rdCombine v s.owLmask
    { s with
      owRdbit := bit
      owData := if s.owOp = .recvbyte then shiftIn bit s.owData else s.owData }
  | .write0 | .write1 => s

/-- The sample, in the one release tick whose count is the primitive's sample time (R142). -/
def State.sampleAtItsTick (s : State) (v : Byte) : State :=
  if s.params.tSmp s.owPrim = some s.owCnt then s.takeSample v else s

/-- `end_of_primitive` (R143). -/
def State.endPrimitive (s : State) : State :=
  if s.owOp.isByteOp then
    { s with
      owCnt := 0
      owBitn := s.owBitn + 1#4
      owPhase := if s.owBitn + 1#4 = 8#4 then .idle else .gap }
  else { s with owCnt := 0, owPhase := .idle }

/-- A tick that starts in DRIVE (R141). -/
def State.driveTick (s : State) : State :=
  if s.owCnt + 1 = s.params.tDrv s.owPrim then { s with owPhase := .release, owCnt := 0 }
  else s.count

/-- A tick that starts in RELEASE (R142): the sample where its tick has come, then the count or the end of the primitive. -/
def State.releaseTick (s : State) (v : Byte) : State :=
  if s.owCnt + 1 = s.params.tRel s.owPrim then (s.sampleAtItsTick v).endPrimitive
  else (s.sampleAtItsTick v).count

/-- A tick that starts in GAP (43_onewire_bytes.md R172). -/
def State.gapTick (s : State) : State :=
  if s.owCnt + 1 = s.params.tGap then
    { s with owCnt := 0, owPhase := .drive, owPrim := slotPrim s.owOp s.owData s.owBitn }
  else s.count

/-- `ow_tick` (00_scope.md R7): one sequencer tick, by the phase the tick STARTED with, with `ow_in = v`. -/
def State.owTick (s : State) (startPhase : Phase) (v : Byte) : State :=
  match startPhase with
  | .idle => s
  | .drive => s.driveTick
  | .release => s.releaseTick v
  | .gap => s.gapTick

end Sys2Proof.Machine
end

