-- ==== Sys2Proof/WellFormed.lean ====
section
/-! DEFINITION. Which operations a word can name. Only the two reserved classes carry a check: their address and data must
be ones that no named row of the opcode map selects (spec/30_encoding.md R85, R86; spec/44_host_access.md R199). -/

namespace Sys2Proof

/-- The write words the list of 30_encoding.md R86 (and 44_host_access.md R199) calls reserved: read-only addresses, addresses
above 0x88, undefined opcodes at OW_CMD, TP_CTRL with neither bit. -/
def reservedWrite (addr data : Byte) : Bool :=
  decide (addr < 0x80#8) || addr == 0x83#8 || addr == 0x84#8 || addr == 0x87#8 || addr == 0x88#8 ||
  decide (0x89#8 ≤ addr) ||
  (addr == 0x80#8 && (data == 0x00#8 || decide (0x07#8 ≤ data))) ||
  (addr == 0x85#8 && data.extractLsb' 0 2 == 0b00#2)

/-- The read words the same list calls reserved: 0x85, 0x86 and everything from 0x89. -/
def reservedRead (addr : Byte) : Bool :=
  addr == 0x85#8 || addr == 0x86#8 || decide (0x89#8 ≤ addr)

/-- An operation some word names. -/
def Instr.wf : Instr → Bool
  | .owReset => true
  | .owWrite0 => true
  | .owWrite1 => true
  | .owReadbit => true
  | .owSendbyte => true
  | .owRecvbyte => true
  | .owSetmask _ => true
  | .owSetdata _ => true
  | .tpAck => true
  | .tpArm => true
  | .tpAckarm => true
  | .tpPush _ => true
  | .tpRdbuf _ => true
  | .owGetcmd => true
  | .owGetmask => true
  | .owGetdata => true
  | .owGetstat => true
  | .tpGetstat => true
  | .tpGetincur => true
  | .tpGetoutcur => true
  | .rxEvent _ => true
  | .txDone => true
  | .rsvdW addr data => reservedWrite addr data
  | .rsvdR addr => reservedRead addr

end Sys2Proof
end

