-- ==== Sys2Proof/Decode.lean ====
section
/-! DEFINITION. The decoder and the encoder of host words and event words (spec/30_encoding.md R80 to R86), and the opcode
map of R85 as data. -/

namespace Sys2Proof

/-! ## Fields -/

/-- Bit 16 of a host word: 1 = write (R80). -/
def HostWord.we (w : HostWord) : Bool := w.getLsbD 16

/-- Bits 15:8 of a host word: the register address (R80). -/
def HostWord.addr (w : HostWord) : Byte := w.extractLsb' 8 8

/-- Bits 7:0 of a host word: the write data (R80). -/
def HostWord.data (w : HostWord) : Byte := w.extractLsb' 0 8

/-- A host word from its three fields (R80). -/
def hostWord (we : Bool) (addr data : Byte) : HostWord := BitVec.ofBool we ++ (addr ++ data)

/-- Bits 9:8 of an event word (R81). -/
def EventWord.kind (w : EventWord) : BitVec 2 := w.extractLsb' 8 2

/-- Bits 7:0 of an event word (R81). -/
def EventWord.data (w : EventWord) : Byte := w.extractLsb' 0 8

/-- An event word from its two fields (R81). -/
def eventWord (kind : BitVec 2) (data : Byte) : EventWord := kind ++ data

/-! ## Decoding -/

/-- Why a word names no operation: kinds 0b00 and 0b11 "are not events and are never produced" (R81). Every host word names
one (R86). -/
inductive DecodeError where
  | notAnEvent (kind : BitVec 2)
deriving DecidableEq, Repr

/-- What a word names. -/
inductive Decoded where
  | instr (i : Instr)
  | rejected (e : DecodeError)
deriving DecidableEq, Repr

/-- A write to OW_CMD: the whole data byte is compared with the opcodes of R83; every other value is reserved (R82, R86). -/
def decodeCommand (data : Byte) : Instr :=
  if data = 0x01#8 then .owReset
  else if data = 0x02#8 then .owWrite0
  else if data = 0x03#8 then .owWrite1
  else if data = 0x04#8 then .owReadbit
  else if data = 0x05#8 then .owSendbyte
  else if data = 0x06#8 then .owRecvbyte
  else .rsvdW 0x80#8 data

/-- A write to TP_CTRL: only `data[1:0]` is decoded (R82, R84). -/
def decodeControl (data : Byte) : Instr :=
  if data.extractLsb' 0 2 = 0b01#2 then .tpAck
  else if data.extractLsb' 0 2 = 0b10#2 then .tpArm
  else if data.extractLsb' 0 2 = 0b11#2 then .tpAckarm
  else .rsvdW 0x85#8 data

/-- A host write (20_memory.md R61, column MemWrite). -/
def decodeWrite (addr data : Byte) : Instr :=
  if addr = 0x80#8 then decodeCommand data
  else if addr = 0x81#8 then .owSetmask data
  else if addr = 0x82#8 then .owSetdata data
  else if addr = 0x85#8 then decodeControl data
  else if addr = 0x86#8 then .tpPush data
  else .rsvdW addr data

/-- A host read (20_memory.md R61, column MemRead): the input buffer's window is the addresses with bit 7 clear, and the data
field is ignored (R80). -/
def decodeRead (addr : Byte) : Instr :=
  if addr.getLsbD 7 = false then .tpRdbuf (addr.extractLsb' 0 7)
  else if addr = 0x80#8 then .owGetcmd
  else if addr = 0x81#8 then .owGetmask
  else if addr = 0x82#8 then .owGetdata
  else if addr = 0x83#8 then .owGetstat
  else if addr = 0x84#8 then .tpGetstat
  else if addr = 0x87#8 then .tpGetincur
  else if addr = 0x88#8 then .tpGetoutcur
  else .rsvdR addr

/-- The operation a host word names: total, every word names exactly one (R85, R86). -/
def decodeHost (w : HostWord) : Instr :=
  if HostWord.we w then decodeWrite (HostWord.addr w) (HostWord.data w) else decodeRead (HostWord.addr w)

/-- The event an event word names (R81). -/
def decodeEvent (w : EventWord) : Decoded :=
  if EventWord.kind w = 0b01#2 then .instr (.rxEvent (EventWord.data w))
  else if EventWord.kind w = 0b10#2 then .instr .txDone
  else .rejected (.notAnEvent (EventWord.kind w))

/-- The operation a word names. -/
def decode : OpWord → Decoded
  | .host w => .instr (decodeHost w)
  | .event w => decodeEvent w

/-! ## Encoding -/

/-- The word of an operation (R85); ignored bits are written 0 (DESIGN CHOICE, log 18). -/
def encode : Instr → OpWord
  | .owReset => .host (hostWord true 0x80#8 0x01#8)
  | .owWrite0 => .host (hostWord true 0x80#8 0x02#8)
  | .owWrite1 => .host (hostWord true 0x80#8 0x03#8)
  | .owReadbit => .host (hostWord true 0x80#8 0x04#8)
  | .owSendbyte => .host (hostWord true 0x80#8 0x05#8)
  | .owRecvbyte => .host (hostWord true 0x80#8 0x06#8)
  | .owSetmask m => .host (hostWord true 0x81#8 m)
  | .owSetdata d => .host (hostWord true 0x82#8 d)
  | .tpAck => .host (hostWord true 0x85#8 0x01#8)
  | .tpArm => .host (hostWord true 0x85#8 0x02#8)
  | .tpAckarm => .host (hostWord true 0x85#8 0x03#8)
  | .tpPush b => .host (hostWord true 0x86#8 b)
  | .tpRdbuf i => .host (hostWord false (0b0#1 ++ i) 0x00#8)
  | .owGetcmd => .host (hostWord false 0x80#8 0x00#8)
  | .owGetmask => .host (hostWord false 0x81#8 0x00#8)
  | .owGetdata => .host (hostWord false 0x82#8 0x00#8)
  | .owGetstat => .host (hostWord false 0x83#8 0x00#8)
  | .tpGetstat => .host (hostWord false 0x84#8 0x00#8)
  | .tpGetincur => .host (hostWord false 0x87#8 0x00#8)
  | .tpGetoutcur => .host (hostWord false 0x88#8 0x00#8)
  | .rxEvent b => .event (eventWord 0b01#2 b)
  | .txDone => .event (eventWord 0b10#2 0x00#8)
  | .rsvdW addr data => .host (hostWord true addr data)
  | .rsvdR addr => .host (hostWord false addr 0x00#8)

/-! ## The opcode map of R85 as data -/

/-- A row of the opcode map for host words: selected when `word & mask = pattern`; `operands` reads the operand fields of
the row from the word (R82). -/
structure MapRow where
  pattern  : HostWord
  mask     : HostWord
  operands : HostWord → Instr

/-- The 20 named host rows of R85, in the table's order. -/
def namedRows : List MapRow := [
  ⟨0x18001#17, 0x1FFFF#17, fun _ => .owReset⟩,
  ⟨0x18002#17, 0x1FFFF#17, fun _ => .owWrite0⟩,
  ⟨0x18003#17, 0x1FFFF#17, fun _ => .owWrite1⟩,
  ⟨0x18004#17, 0x1FFFF#17, fun _ => .owReadbit⟩,
  ⟨0x18005#17, 0x1FFFF#17, fun _ => .owSendbyte⟩,
  ⟨0x18006#17, 0x1FFFF#17, fun _ => .owRecvbyte⟩,
  ⟨0x18100#17, 0x1FF00#17, fun w => .owSetmask (w.extractLsb' 0 8)⟩,
  ⟨0x18200#17, 0x1FF00#17, fun w => .owSetdata (w.extractLsb' 0 8)⟩,
  ⟨0x18501#17, 0x1FF03#17, fun _ => .tpAck⟩,
  ⟨0x18502#17, 0x1FF03#17, fun _ => .tpArm⟩,
  ⟨0x18503#17, 0x1FF03#17, fun _ => .tpAckarm⟩,
  ⟨0x18600#17, 0x1FF00#17, fun w => .tpPush (w.extractLsb' 0 8)⟩,
  ⟨0x00000#17, 0x18000#17, fun w => .tpRdbuf (w.extractLsb' 8 7)⟩,
  ⟨0x08000#17, 0x1FF00#17, fun _ => .owGetcmd⟩,
  ⟨0x08100#17, 0x1FF00#17, fun _ => .owGetmask⟩,
  ⟨0x08200#17, 0x1FF00#17, fun _ => .owGetdata⟩,
  ⟨0x08300#17, 0x1FF00#17, fun _ => .owGetstat⟩,
  ⟨0x08400#17, 0x1FF00#17, fun _ => .tpGetstat⟩,
  ⟨0x08700#17, 0x1FF00#17, fun _ => .tpGetincur⟩,
  ⟨0x08800#17, 0x1FF00#17, fun _ => .tpGetoutcur⟩]

/-- The two reserved rows of R85, lowest priority. -/
def reservedRows : List MapRow := [
  ⟨0x10000#17, 0x10000#17, fun w => .rsvdW (w.extractLsb' 8 8) (w.extractLsb' 0 8)⟩,
  ⟨0x00000#17, 0x10000#17, fun w => .rsvdR (w.extractLsb' 8 8)⟩]

/-- The word matches the row (R85). -/
def MapRow.selects (r : MapRow) (w : HostWord) : Bool := w &&& r.mask == r.pattern

/-- What the opcode map names a host word: the first row, in the map's order, that selects it (R85). -/
def lookupMap (w : HostWord) : Option Instr :=
  ((namedRows ++ reservedRows).find? (fun r => r.selects w)).map (fun r => r.operands w)

/-! ## The host's question -/

/-- The operation the decoder reads from a row of spec/opcode_table.json whose bits are `w`. A row of at most 16 bits is an
event word of 10 bits, any other a host word of 17 bits: the only two formats there are (R80, R81; log 19). A number that
does not fit the format is no word. -/
def decodeTableWord (nbits w : Nat) : Option Instr :=
  if nbits ≤ 16 then
    if w < 1024 then
      match decode (.event (BitVec.ofNat 10 w)) with
      | .instr i => some i
      | .rejected _ => none
    else none
  else if w < 131072 then
    match decode (.host (BitVec.ofNat 17 w)) with
    | .instr i => some i
    | .rejected _ => none
  else none

end Sys2Proof
end

