-- ==== Sys2Proof/Machine/Tick.lean ====
section
/-! DEFINITION. One tick around its action (spec/00_scope.md R7): the inputs, the outputs, the arbitration
(spec/60_exceptions.md R224), the reset tick (spec/70_reset_and_hazards.md R250); and the inputs that make an operation run. -/

namespace Sys2Proof.Machine

/-- The inputs of the tick `k` ticks from now: the listed ones first, then the environment's draws (log 1). -/
def State.inputAt (s : State) (k : Nat) : Input :=
  match s.inputs[k]? with
  | some i => i
  | none => Config.environment (s.tick + k)

/-- The output ports during a tick that starts in `s` with inputs `i`, before the tick's action (10_state.md R45): `h_rdata`
and `tx_data` are any value until an action drives them (log 6). -/
def State.portsFor (s : State) (i : Input) : Ports where
  hRdata := Config.openRdata (s.tick + 1)
  rxReady := s.rxReady i
  txWr := false
  txData := Config.openTxData (s.tick + 1)
  txcReady := s.txcReady i
  owOe := s.owOe
  evSuspend := s.owPhase.crit
  irqLineReady := s.inReady
  owBusy := s.owPhase.busy
  owPresent := s.owPresent

/-- The tick begins: its inputs leave the list, it is counted, the ports show the state at its start. -/
def State.begin (s : State) (i : Input) : State :=
  { s with inputs := s.inputs.tail, tick := s.tick + 1, out := s.portsFor i }

/-- A tick with `rst = 1` ends in the reset state (R250), whatever the state before: no access, no event, no load, no sequencer
tick. The model's own fields go on: the parameters are the instance's, the buffers' bytes are drawn anew (log 13). -/
def State.resetTick (s : State) : State :=
  { State.reset with
    params := s.params
    out := s.out
    inputs := s.inputs
    tick := s.tick
    epoch := s.epoch + 1 }

/-- The word of the tick's action (60_exceptions.md R224, in its order): host access, receive event, transmit-complete event,
nothing. -/
def State.select (s : State) (i : Input) : Option OpWord :=
  if i.hReq then some (.host (hostWord i.hWe i.hAddr i.hWdata))
  else if i.rxValid && s.rxOpen then some (.event (eventWord 0b01#2 i.rxData))
  else if i.txcValid && s.txOpen then some (.event (eventWord 0b10#2 0x00#8))
  else none

/-! ## Making the next tick run a given operation (log 2) -/

/-- The inputs of a tick with the host access of a word. -/
def Input.withHostWord (i : Input) (w : HostWord) : Input :=
  { i with rst := false, hReq := true, hWe := HostWord.we w, hAddr := HostWord.addr w, hWdata := HostWord.data w }

/-- The inputs of a tick in which the transceiver offers a byte and the host makes no access. -/
def Input.withByte (i : Input) (b : Byte) : Input :=
  { i with rst := false, hReq := false, rxValid := true, rxData := b }

/-- The inputs of a tick in which the transceiver reports transmit-complete, offers no byte, and the host makes no access. -/
def Input.withReport (i : Input) : Input :=
  { i with rst := false, hReq := false, rxValid := false, txcValid := true }

/-- The inputs of a tick in which the host makes no access and the transceiver offers nothing. -/
def Input.withNothing (i : Input) : Input :=
  { i with rst := false, hReq := false, rxValid := false, txcValid := false }

/-- The inputs of a tick in which the host makes no access, the rest as it is. -/
def Input.withoutAccess (i : Input) : Input := { i with rst := false, hReq := false }

/-- The next tick's inputs replaced. -/
def State.placeInput (s : State) (i : Input) : State := { s with inputs := i :: s.inputs.tail }

/-- Out of the critical section: no event is taken inside one (60_exceptions.md R227). -/
def State.leaveCritical (s : State) : State :=
  if s.owPhase.crit then { s with owPhase := .idle, owCnt := 0 } else s

/-- A state in which a byte is taken when offered (40_transport_receive.md R101). -/
def State.openReceive (s : State) : State :=
  let t := s.leaveCritical
  { t with rxEn := true, inReady := false }

/-- A state in which a report is taken when offered (41_transport_transmit.md R123): a line is being sent; if none is, one
whose last byte, the terminator at the cursor, was just sent (10_state.md R47 INV-3). -/
def State.openTransmit (s : State) : State :=
  let t := s.leaveCritical
  if t.txEn then t
  else { t with outBuf := t.outBuf.put t.outCur.toNat Config.term, txEn := true }

/-- The state whose very next step runs the word: the word as the next tick's inputs, and for an event the state in which
the event occurs. A word of no event kind leaves a tick in which nothing is offered. -/
def State.placeWord (s : State) : OpWord → State
  | .host w => s.placeInput ((s.inputAt 0).withHostWord w)
  | .event w =>
    if EventWord.kind w = 0b01#2 then s.openReceive.placeInput ((s.inputAt 0).withByte (EventWord.data w))
    else if EventWord.kind w = 0b10#2 then s.openTransmit.placeInput (s.inputAt 0).withReport
    else s.placeInput (s.inputAt 0).withNothing

end Sys2Proof.Machine
end

