-- ==== Sys2Proof/Machine/Step.lean ====
section
/-! DEFINITION. One tick of the block (spec/00_scope.md R7). -/

namespace Sys2Proof.Machine

/-- Perform the operation a word names. -/
def execWord (w : OpWord) (s : State) : Host.Outcome State Fault Refusal :=
  match decode w with
  | .instr i => exec i s
  | .rejected (.notAnEvent kind) => .refused (.notAnEvent kind)

/-- One tick (00_scope.md R7): reset, or at most one action and then one sequencer tick on the phase the tick started with. -/
def step (s : State) : Host.Outcome State Fault Refusal :=
  if (s.inputAt 0).rst then .next (s.begin (s.inputAt 0)).resetTick
  else
    match s.select (s.inputAt 0) with
    | none => .next ((s.begin (s.inputAt 0)).owTick s.owPhase (s.inputAt 0).owIn)
    | some w =>
      match execWord w (s.begin (s.inputAt 0)) with
      | .next t => .next (t.owTick s.owPhase (s.inputAt 0).owIn)
      | .fault f => .fault f
      | .refused r => .refused r

/-- The state whose next step runs the operation whose bits are `w` (log 2): a host access or an event as the next tick's
inputs. The format is read from `nbits` as `decodeTableWord` reads it. -/
def State.withFetchWord (s : State) (nbits w : Nat) : State :=
  if nbits ≤ 16 then s.placeWord (.event (BitVec.ofNat 10 w)) else s.placeWord (.host (BitVec.ofNat 17 w))

end Sys2Proof.Machine
end

