-- ==== Sys2Proof/Machine/HostScript.lean ====
section
/-! DEFINITION. The pseudo-operations of spec/30_encoding.md R88: the source's entry points as sequences of host accesses, one
access a tick. The host is environment (spec/00_scope.md R5); no operation of the block calls these. -/

namespace Sys2Proof.Machine

/-- One tick with the host access of an operation, the rest of the tick's inputs as the environment has them, without reset. -/
def hostAccess (i : Instr) (s : State) : Option State :=
  match encode i with
  | .event _ => none
  | .host w =>
    match step (s.placeInput ((s.inputAt 0).withHostWord w)) with
    | .next t => some t
    | .fault _ => none
    | .refused _ => none

/-- `WAIT` (R88): OW.GETSTAT until the value returned has bit 0 (BUSY) = 0, for at most `fuel` reads. -/
def waitIdle : (fuel : Nat) → State → Option State
  | 0, _ => none
  | fuel + 1, s =>
    match hostAccess .owGetstat s with
    | none => none
    | some t => if t.out.hRdata.getLsbD 0 then waitIdle fuel t else some t

/-- `presenceDetect(m)` (R88): bit 2 (PRESENT) of the status after the command. -/
def presenceDetect (fuel : Nat) (m : Byte) (s : State) : Option (State × Bool) := do
  let t ← hostAccess (.owSetmask m) s
  let t ← hostAccess .owReset t
  let t ← waitIdle fuel t
  let t ← hostAccess .owGetstat t
  some (t, t.out.hRdata.getLsbD 2)

/-- `sendByte(m, b)` (R88). -/
def sendByte (fuel : Nat) (m b : Byte) (s : State) : Option State := do
  let t ← hostAccess (.owSetmask m) s
  let t ← hostAccess (.owSetdata b) t
  let t ← hostAccess .owSendbyte t
  waitIdle fuel t

/-- `receiveByte(m)` (R88): the byte OW.GETDATA returns. -/
def receiveByte (fuel : Nat) (m : Byte) (s : State) : Option (State × Byte) := do
  let t ← hostAccess (.owSetmask m) s
  let t ← hostAccess .owRecvbyte t
  let t ← waitIdle fuel t
  let t ← hostAccess .owGetdata t
  some (t, t.out.hRdata)

/-- The bytes `Write(line)` pushes (41_transport_transmit.md R124), with room for `room` more before the push that fills
index 126 and with it: up to and with the first terminator, or the byte that fills the room, or all of the line. -/
def pushedBytes : (room : Nat) → (line : List Byte) → List Byte
  | 0, _ => []
  | _ + 1, [] => []
  | room + 1, b :: rest => if b = Config.term then [b] else b :: pushedBytes room rest

/-- The bytes `Write(line)` pushes while a line is being sent: each push is dropped (41_transport_transmit.md R121), so none
fills index 126, whatever OUT_CUR, the send position, holds: up to and with the first terminator (30_encoding.md R88), or all of
the line. -/
def droppedBytes : (line : List Byte) → List Byte
  | [] => []
  | b :: rest => if b = Config.term then [b] else b :: droppedBytes rest

/-- With `TX_EN = 0`, the pushes up to the one that fills index 126 and with it: 127 in an empty buffer, fewer where a partial
line waits (70_reset_and_hazards.md R258). -/
def State.writeRoom (s : State) : Nat := (Config.lastIndex - 1#7 - s.outCur).toNat + 1

/-- The operations of `Write(line)`, one a tick (41_transport_transmit.md R124, 30_encoding.md R88): no event comes between two
pushes (60_exceptions.md R224), so TX_EN when it starts decides whether its pushes are stored or dropped. -/
def writeLine (s : State) (line : List Byte) : List Instr :=
  (if s.txEn then droppedBytes line else pushedBytes s.writeRoom line).map .tpPush

/-- The host accesses of several operations, in order, one a tick. -/
def hostAccesses : List Instr → State → Option State
  | [], s => some s
  | i :: rest, s =>
    match hostAccess i s with
    | none => none
    | some t => hostAccesses rest t

/-- `Write(line)` at the host port (R88, 41_transport_transmit.md R124): its pushes, one a tick. It returns nothing. -/
def write (line : List Byte) (s : State) : Option State := hostAccesses (writeLine s line) s

/-- Ticks without a host access and without reset, the rest of their inputs as the environment has them. -/
def hostWaits : (ticks : Nat) → State → Option State
  | 0, s => some s
  | n + 1, s =>
    match step (s.placeInput (s.inputAt 0).withoutAccess) with
    | .next t => hostWaits n t
    | .fault _ => none
    | .refused _ => none

/-- Whether Write stops with the push of `b` in a tick that starts in `s` (41_transport_transmit.md R124, 30_encoding.md
R88): at a terminator, or where the push fills index 126, which a dropped push (R121) does not. -/
def State.endsWrite (s : State) (b : Byte) : Bool :=
  decide (b = Config.term ∨ (s.txEn = false ∧ s.outCur + 1#7 = Config.lastIndex))

/-- `Write(line)` "one per tick or slower" (41_transport_transmit.md R124): each byte with the ticks the host waits before its
push. While it waits events are taken, so a line in flight may end and later pushes be stored. -/
def writePaced : List (Nat × Byte) → State → Option State
  | [], s => some s
  | (wait, b) :: rest, s =>
    match hostWaits wait s with
    | none => none
    | some t =>
      match hostAccess (.tpPush b) t with
      | none => none
      | some u => if t.endsWrite b then some u else writePaced rest u

/-- The reads of `readLine()` (R88) from index `127 - left` on: up to and with the first terminator, or index 126. -/
def readFrom : (left : Nat) → State → Option (State × List Byte)
  | 0, s => some (s, [])
  | left + 1, s =>
    match hostAccess (.tpRdbuf (BitVec.ofNat 7 (126 - left))) s with
    | none => none
    | some t =>
      if t.out.hRdata = Config.term then some (t, [t.out.hRdata])
      else (readFrom left t).map (fun r => (r.1, t.out.hRdata :: r.2))

/-- `readLine()` (R88): the line, then TP.ACK, and TP.ARM unless a response will be sent. -/
def readLine (willRespond : Bool) (s : State) : Option (State × List Byte) := do
  let (t, line) ← readFrom 127 s
  let t ← hostAccess .tpAck t
  if willRespond then some (t, line)
  else
    let t ← hostAccess .tpArm t
    some (t, line)

end Sys2Proof.Machine
end

