-- ==== Sys2Proof/Safety.lean ====
section
/-! DEFINITION. The terms in which claims about the block are written: runs of ticks and what is seen on the ports during them,
sequences of operations, the invariants of spec/10_state.md R47, and the premises about the environment (R46). -/

namespace Sys2Proof.Machine

/-! ## Runs -/

/-- The state after `n` ticks. -/
def afterTicks : Nat → State → Option State
  | 0, s => some s
  | n + 1, s =>
    match step s with
    | .next t => afterTicks n t
    | .fault _ => none
    | .refused _ => none

/-- No reset in the next `n` ticks. -/
def NoReset (n : Nat) (s : State) : Prop := ∀ k < n, (s.inputAt k).rst = false

/-- The tick's inputs hold a host write to an address (20_memory.md R61). -/
def Input.writes (i : Input) (addr : Byte) : Bool := i.hReq && i.hWe && i.hAddr == addr

/-- The tick's inputs hold TP.ACK or TP.ACKARM: a write to TP_CTRL with the ACK bit set (10_state.md R42). -/
def Input.acks (i : Input) : Bool := i.writes 0x85#8 && i.hWdata.getLsbD 0

/-- No TP.ACK and no TP.ACKARM in the next `n` ticks. -/
def NoAck (n : Nat) (s : State) : Prop := ∀ k < n, (s.inputAt k).acks = false

/-- The tick's inputs hold a host write of the opcode of a command to OW_CMD (30_encoding.md R83). -/
def Input.commands (i : Input) (op : OwOp) : Prop := i.writes 0x80#8 = true ∧ i.hWdata = op.code.setWidth 8

/-- The bytes delivered in the next `n` ticks, in order: "a byte is delivered in a tick with rx_valid = 1 and rx_ready = 1"
(10_state.md R46 XCVR-1). -/
def deliveredBytes : Nat → State → List Byte
  | 0, _ => []
  | n + 1, s =>
    match step s with
    | .next t =>
      (if (s.inputAt 0).rxValid && t.out.rxReady then [(s.inputAt 0).rxData] else []) ++ deliveredBytes n t
    | .fault _ => []
    | .refused _ => []

/-- The bytes loaded into the transceiver in the next `n` ticks, in order (10_state.md R46 XCVR-2). -/
def loadedBytes : Nat → State → List Byte
  | 0, _ => []
  | n + 1, s =>
    match step s with
    | .next t => (if t.out.txWr then [t.out.txData] else []) ++ loadedBytes n t
    | .fault _ => []
    | .refused _ => []

/-- The number of transmit-complete reports taken in the next `n` ticks: ticks with txc_valid = 1 and txc_ready = 1
(10_state.md R46 XCVR-2). -/
def reportsTaken : Nat → State → Nat
  | 0, _ => 0
  | n + 1, s =>
    match step s with
    | .next t => (if (s.inputAt 0).txcValid && t.out.txcReady then 1 else 0) + reportsTaken n t
    | .fault _ => 0
    | .refused _ => 0

/-- The transceiver keeps XCVR-2 and XCVR-4 in the next `n` ticks (10_state.md R46): it raises a report only for a byte loaded
and not yet reported, `owed` of them being open now. A premise about the environment, never a rule of the block (log 16). -/
def XcvrReportsHonestly (owed n : Nat) (s : State) : Prop :=
  ∀ k < n, (s.inputAt k).txcValid = true → reportsTaken k s < owed + (loadedBytes k s).length

/-- Ticks from the first driven tick of a byte command to the first driven tick of slot `k`, the primitive of slot `j` being
`slot j` (43_onewire_bytes.md R174). -/
def slotStart (p : Params) (slot : Nat → Prim) : Nat → Nat
  | 0 => 0
  | k + 1 => slotStart p slot k + (p.tDrv (slot k) + p.tRel (slot k) + p.tGap)

/-- What a tick of slot `k` of a byte command shows, `m` ticks after the slot's first driven tick, `prim` being the slot's
primitive (43_onewire_bytes.md R170 to R172): driven, then released, then the gap, with no gap after the eighth slot. -/
structure InSlot (s : State) (k m : Nat) (prim : Prim) : Prop where
  driven : m < s.params.tDrv prim → s.owPhase = .drive ∧ s.owPrim = prim ∧ s.owBitn.toNat = k
  released : s.params.tDrv prim ≤ m → m < s.params.tDrv prim + s.params.tRel prim →
    s.owPhase = .release ∧ s.owPrim = prim ∧ s.owBitn.toNat = k
  between : s.params.tDrv prim + s.params.tRel prim ≤ m → k < 7 →
    m < s.params.tDrv prim + s.params.tRel prim + s.params.tGap → s.owPhase = .gap ∧ s.owBitn.toNat = k + 1
  finished : m = s.params.tDrv prim + s.params.tRel prim → k = 7 → s.owPhase = .idle ∧ s.owBitn = 8#4

/-- The bit sampled in slot `j` of an OW.RECVBYTE accepted in the next tick (42_onewire_primitives.md R142, R148,
43_onewire_bytes.md R174). -/
def sampleOfSlot (s : State) (j : Nat) : Bool :=
  rdbit s.params.rdCombine
    (s.inputAt (1 + j * (s.params.tDrv .read + s.params.tRel .read + s.params.tGap) + s.params.tDrv .read +
      s.params.timing.sampleRead)).owIn s.owMask

/-! ## Sequences of operations -/

/-- The state with `tx_wr = 0`: what an operation starts from, so that a load seen after it is its own. -/
def State.quiet (s : State) : State := { s with out := { s.out with txWr := false } }

/-- The byte the operation just done loaded into the transceiver, if it loaded one. -/
def State.loaded (s : State) : List Byte := if s.out.txWr then [s.out.txData] else []

/-- Perform operations in order, each in a tick of its own, and collect the bytes they load into the transceiver. -/
def runOps : List Instr → State → Option (State × List Byte)
  | [], s => some (s, [])
  | i :: rest, s =>
    match exec i s.quiet with
    | .next t => (runOps rest t).map (fun r => (r.1, t.loaded ++ r.2))
    | .fault _ => none
    | .refused _ => none

/-! ## The invariants of 10_state.md R47 -/

/-- INV-8's agreement of OW_OP and OW_PRIM during a primitive. -/
def State.primAgrees (s : State) : Prop :=
  (s.owOp = .reset ∧ s.owPrim = .reset) ∨ (s.owOp = .write0 ∧ s.owPrim = .write0) ∨
  (s.owOp = .write1 ∧ s.owPrim = .write1) ∨ ((s.owOp = .readbit ∨ s.owOp = .recvbyte) ∧ s.owPrim = .read) ∨
  (s.owOp = .sendbyte ∧ s.owPrim = if s.owData.getLsbD s.owBitn.toNat then .write1 else .write0)

/-- The invariants INV-1 to INV-9 of 10_state.md R47, in its order. -/
structure Inv (s : State) : Prop where
  inCurRange : s.inCur.toNat ≤ 126
  outCurRange : s.txEn = false → s.outCur.toNat ≤ 126
  lineTerminated : s.txEn = true → ∃ k, s.outCur.toNat ≤ k ∧ k ≤ 127 ∧ s.outByte k = Config.term
  idleCount : s.owPhase = .idle → s.owCnt = 0
  driveCount : s.owPhase = .drive → s.owCnt < s.params.tDrv s.owPrim
  releaseCount : s.owPhase = .release → s.owCnt < s.params.tRel s.owPrim
  gapCount : s.owPhase = .gap → s.owCnt < s.params.tGap
  bitnRange : s.owBitn.toNat ≤ 8
  bitnRunning : s.owPhase ≠ .idle → s.owOp = .sendbyte ∨ s.owOp = .recvbyte → s.owBitn.toNat ≤ 7
  bitnSingle : s.owOp ≠ .sendbyte → s.owOp ≠ .recvbyte → s.owBitn = 0#4
  gapOnlyInBytes : s.owPhase = .gap → s.owOp = .sendbyte ∨ s.owOp = .recvbyte
  primOfCommand : s.owPhase = .drive ∨ s.owPhase = .release → s.primAgrees
  onlyTargeted : s.owOe &&& ~~~s.owLmask = 0x00#8

end Sys2Proof.Machine
end

