-- ==== Sys2Proof/Certificates/Slice0/Obligations.lean ====
section
/-! DEFINITION. The statements for the provers. Each docstring names the rule of spec/ it formalises; where a clause rests on
a value or a behaviour the model chose, the docstring names the log entry. -/

open Sys2Proof Sys2Proof.Machine

/-! ## Encoding -/

/-- Words written out from the table of 30_encoding.md R85 and the vectors of 95_test_vectors.md decode to their
operations. -/
def Obligations.TableWordsDecode : Prop :=
  decode (.host 0x18001#17) = .instr .owReset ∧ decode (.host 0x18006#17) = .instr .owRecvbyte ∧
  decode (.host 0x18105#17) = .instr (.owSetmask 0x05#8) ∧ decode (.host 0x182CC#17) = .instr (.owSetdata 0xCC#8) ∧
  decode (.host 0x185FD#17) = .instr .tpAck ∧ decode (.host 0x1860A#17) = .instr (.tpPush 0x0A#8) ∧
  decode (.host 0x001FF#17) = .instr (.tpRdbuf 1#7) ∧ decode (.host 0x081AB#17) = .instr .owGetmask ∧
  decode (.host 0x08800#17) = .instr .tpGetoutcur ∧ decode (.host 0x183FF#17) = .instr (.rsvdW 0x83#8 0xFF#8) ∧
  decode (.host 0x0C000#17) = .instr (.rsvdR 0xC0#8) ∧ decode (.event 0x13A#10) = .instr (.rxEvent 0x3A#8) ∧
  decode (.event 0x200#10) = .instr .txDone ∧ decode (.event 0x300#10) = .rejected (.notAnEvent 3#2)

/-- Decoding an encoded well-formed operation gives it back, with every operand at every value. -/
def Obligations.DecodeOfEncodeIsTheOperation : Prop :=
  ∀ i : Instr, i.wf = true → decode (encode i) = .instr i

/-- 30_encoding.md R85, whole: the decoder reads every host word as the first row of the map that selects it; the 20
named host rows are pairwise disjoint; and every event word as its row of the map, the two rows being disjoint. -/
def Obligations.DecoderIsTheOpcodeMap : Prop :=
  (∀ w : HostWord, lookupMap w = some (decodeHost w)) ∧
  namedRows.Pairwise (fun r q => ∀ w : HostWord, ¬ (r.selects w = true ∧ q.selects w = true)) ∧
  (∀ w : EventWord, w &&& 0x300#10 = 0x100#10 → decode (.event w) = .instr (.rxEvent (w.extractLsb' 0 8))) ∧
  (∀ w : EventWord, w &&& 0x300#10 = 0x200#10 → decode (.event w) = .instr .txDone) ∧
  (∀ w : EventWord, ¬ (w &&& 0x300#10 = 0x100#10 ∧ w &&& 0x300#10 = 0x200#10))

/-- Only words of the reserved list of 30_encoding.md R86 decode to a reserved operation, and what the decoder reads
is always an operation some word names. -/
def Obligations.DecodedOperationsAreWellFormed : Prop :=
  ∀ (w : OpWord) (i : Instr), decode w = .instr i → i.wf = true

/-! ## One tick -/

/-- A tick runs the operation its selected word names: `step` is `exec` of it on the state at the tick's beginning,
and then one sequencer tick on the phase the tick started with (00_scope.md R7). -/
def Obligations.StepRunsTheDecodedOperation : Prop :=
  ∀ (s : State) (w : OpWord) (i : Instr), (s.inputAt 0).rst = false → s.select (s.inputAt 0) = some w →
    decode w = .instr i →
    i.wf = true ∧
    step s = match exec i (s.begin (s.inputAt 0)) with
      | .next t => .next (t.owTick s.owPhase (s.inputAt 0).owIn)
      | .fault f => .fault f
      | .refused r => .refused r

/-- 00_scope.md R7: reset first; else a host access; else a receive event where it may occur; else a transmit-complete
event where it may occur; else nothing; and, but for reset, one sequencer tick on the phase at the START of the tick. -/
def Obligations.TickFollowsTheStepRule : Prop :=
  ∀ (s : State) (i : Input), s.inputAt 0 = i →
    (i.rst = true → step s = .next (s.begin i).resetTick) ∧
    (i.rst = false → i.hReq = true → ∃ t,
      exec (decodeHost (hostWord i.hWe i.hAddr i.hWdata)) (s.begin i) = .next t ∧
      step s = .next (t.owTick s.owPhase i.owIn)) ∧
    (i.rst = false → i.hReq = false →
      (i.rxValid = true → s.rxEn = true → s.inReady = false → s.owPhase ≠ .drive → s.owPhase ≠ .release → ∃ t,
        exec (.rxEvent i.rxData) (s.begin i) = .next t ∧ step s = .next (t.owTick s.owPhase i.owIn)) ∧
      (i.rxValid = false ∨ s.rxEn = false ∨ s.inReady = true ∨ s.owPhase = .drive ∨ s.owPhase = .release →
        (i.txcValid = true → s.txEn = true → s.owPhase ≠ .drive → s.owPhase ≠ .release → ∃ t,
          exec .txDone (s.begin i) = .next t ∧ step s = .next (t.owTick s.owPhase i.owIn)) ∧
        (i.txcValid = false ∨ s.txEn = false ∨ s.owPhase = .drive ∨ s.owPhase = .release →
          step s = .next ((s.begin i).owTick s.owPhase i.owIn))))

/-- 60_exceptions.md R220: no operation, with any operand, in any state, faults, stalls or halts the block, no tick does,
and there is no fault value. -/
def Obligations.EveryOperationAndEveryTickCompletes : Prop :=
  (∀ (i : Instr) (s : State), ∃ t, exec i s = .next t) ∧ (∀ s : State, ∃ t, step s = .next t) ∧ (Fault → False)

/-- 10_state.md R38 and R45: what the ports show during a tick is a function of the state at its start (and, for the
two ready signals, of the tick's inputs). -/
def Obligations.PortsShowTheStateAtTheStartOfTheTick : Prop :=
  ∀ (s t : State) (i : Input), s.inputAt 0 = i → step s = .next t →
    (∀ k < 8, t.out.owOe.getLsbD k = (decide (s.owPhase = .drive) && s.owLmask.getLsbD k)) ∧
    t.out.owBusy = decide (s.owPhase ≠ .idle) ∧
    t.out.evSuspend = decide (s.owPhase = .drive ∨ s.owPhase = .release) ∧
    t.out.irqLineReady = s.inReady ∧ t.out.owPresent = s.owPresent ∧
    t.out.rxReady = (s.rxEn && !s.inReady && !t.out.evSuspend && !i.hReq && !i.rst) ∧
    t.out.txcReady = (s.txEn && !t.out.evSuspend && !i.hReq && !(i.rxValid && t.out.rxReady) && !i.rst)

/-! ## Reset -/

/-- 10_state.md R48: the value after reset of every element the rule gives one, and of the outputs. The buffers' bytes, which
R48 leaves unspecified, are not mentioned. -/
def Obligations.ResetStateValues : Prop :=
  State.reset.inCur = 0#7 ∧ State.reset.outCur = 0#7 ∧ State.reset.inReady = false ∧ State.reset.rxEn = false ∧
  State.reset.txEn = false ∧ State.reset.owMask = 0#8 ∧ State.reset.owData = 0#8 ∧ State.reset.owLmask = 0#8 ∧
  State.reset.owPhase = .idle ∧ State.reset.owOp = .noCommand ∧ State.reset.owPrim = .reset ∧ State.reset.owCnt = 0 ∧
  State.reset.owBitn = 0#4 ∧ State.reset.owPresent = false ∧ State.reset.owRdbit = false ∧
  State.reset.out.owOe = 0#8 ∧ State.reset.out.txWr = false ∧ State.reset.out.rxReady = false ∧
  State.reset.out.txcReady = false ∧ State.reset.out.evSuspend = false ∧ State.reset.out.irqLineReady = false ∧
  State.reset.out.owBusy = false ∧ State.reset.out.owPresent = false

/-- 70_reset_and_hazards.md R250: a tick with `rst = 1` ends in the reset state of 10_state.md R48 whatever the state
before and whatever the other inputs; nothing is taken or loaded in it, and the ports that are functions of the state
show the state at its start. The buffers' bytes, which R48 leaves unspecified, are not mentioned. -/
def Obligations.ResetTickEndsInTheResetState : Prop :=
  ∀ s : State, (s.inputAt 0).rst = true → ∃ t, step s = .next t ∧
    t.inCur = 0#7 ∧ t.outCur = 0#7 ∧ t.inReady = false ∧ t.rxEn = false ∧ t.txEn = false ∧ t.owMask = 0#8 ∧
    t.owData = 0#8 ∧ t.owLmask = 0#8 ∧ t.owPhase = .idle ∧ t.owOp = .noCommand ∧ t.owPrim = .reset ∧ t.owCnt = 0 ∧
    t.owBitn = 0#4 ∧ t.owPresent = false ∧ t.owRdbit = false ∧
    t.out.rxReady = false ∧ t.out.txcReady = false ∧ t.out.txWr = false ∧
    t.out.owOe = (if s.owPhase = .drive then s.owLmask else 0#8) ∧
    t.out.evSuspend = decide (s.owPhase = .drive ∨ s.owPhase = .release) ∧ t.out.irqLineReady = s.inReady ∧
    t.out.owBusy = decide (s.owPhase ≠ .idle) ∧ t.out.owPresent = s.owPresent

/-- The MODEL's reading of "any value, fixed once drawn" for the buffers after reset (log 4, log 13; 10_state.md R48 only says
unspecified): in the reset state every byte of both buffers reads as the draw for its reset, and a reset tick keeps the
parameters and draws every byte anew, whatever was written before. -/
def Obligations.ResetTickDrawsTheBuffersAnew : Prop :=
  (∀ k, State.reset.inByte k = Config.unwritten .input State.reset.epoch k) ∧
  (∀ k, State.reset.outByte k = Config.unwritten .output State.reset.epoch k) ∧
  ∀ s : State, (s.inputAt 0).rst = true → ∃ t, step s = .next t ∧ t.params = s.params ∧ t.epoch = s.epoch + 1 ∧
    (∀ k, t.inByte k = Config.unwritten .input (s.epoch + 1) k) ∧
    (∀ k, t.outByte k = Config.unwritten .output (s.epoch + 1) k)

/-! ## Invariants -/

/-- INV-1 to INV-9 of 10_state.md R47, which the spec marks as its own inference, hold in the reset state. -/
def Obligations.InvariantsHoldAtReset : Prop := Inv State.reset

/-- Every tick, with any inputs, keeps INV-1 to INV-9 of 10_state.md R47, which the spec marks as its own inference. -/
def Obligations.EveryTickKeepsTheInvariants : Prop :=
  ∀ s t : State, Inv s → step s = .next t → Inv t

/-- Every tick keeps the two buffers' canonical form (strictly rising indices below the capacity of 00_scope.md R8), so
that no index outside 0 to 127 is ever written (20_memory.md R64), and the reset state has it. The form is the model's
(log 5). -/
def Obligations.EveryTickKeepsTheBuffersCanonical : Prop :=
  (State.reset.inBuf.wf = true ∧ State.reset.outBuf.wf = true) ∧
  ∀ s t : State, s.inBuf.wf = true → s.outBuf.wf = true → step s = .next t →
    t.inBuf.wf = true ∧ t.outBuf.wf = true

/-- The parameters are constant for an instance (10_state.md R49). That State holds them is the model's choice (log
3). -/
def Obligations.NoTickChangesTheParameters : Prop :=
  ∀ s t : State, step s = .next t → t.params = s.params

/-! ## Who writes what -/

/-- 10_state.md R39, its columns "set by" and "cleared by": in a tick without reset each flag is set and cleared only by what
its row of the table names: IN_READY and RX_EN by the receive event that ends a line, TX_EN by the push that completes a
line, TX_EN and RX_EN by the last transmit-complete event, BUSY and CRIT by acceptance, the start and the end of a
primitive, OW_PRESENT and OW_RDBIT by a sample with that result. -/
def Obligations.FlagsChangeOnlyByTheirTable : Prop :=
  ∀ (s t : State) (i : Input), s.inputAt 0 = i → i.rst = false → step s = .next t →
    (s.inReady = false → t.inReady = true → i.rxValid = true ∧ t.out.rxReady = true ∧ t.inCur = 0#7 ∧
      (i.rxData = 0x0A#8 ∨ s.inCur.toNat + 1 = 127)) ∧
    (s.inReady = true → t.inReady = false → i.acks = true) ∧
    (s.rxEn = false → t.rxEn = true →
      (i.writes 0x85#8 = true ∧ i.hWdata.getLsbD 1 = true) ∨
      (i.txcValid = true ∧ t.out.txcReady = true ∧ t.txEn = false ∧
        (s.outByte s.outCur.toNat = 0x0A#8 ∨ s.outCur.toNat = 127))) ∧
    (s.rxEn = true → t.rxEn = false → i.rxValid = true ∧ t.out.rxReady = true ∧ t.inReady = true ∧
      (i.rxData = 0x0A#8 ∨ s.inCur.toNat + 1 = 127)) ∧
    (s.txEn = false → t.txEn = true → i.writes 0x86#8 = true ∧ (i.hWdata = 0x0A#8 ∨ s.outCur.toNat + 1 = 127)) ∧
    (s.txEn = true → t.txEn = false → i.txcValid = true ∧ t.out.txcReady = true ∧
      (s.outByte s.outCur.toNat = 0x0A#8 ∨ s.outCur.toNat = 127)) ∧
    (s.owPhase = .idle → t.owPhase ≠ .idle → ∃ op, op ≠ .noCommand ∧ i.commands op ∧ t.owPhase = .drive) ∧
    (s.owPhase ≠ .idle → t.owPhase = .idle → s.owPhase = .release ∧ s.owCnt + 1 = s.params.tRel s.owPrim ∧
      (s.owOp = .sendbyte ∨ s.owOp = .recvbyte → t.owBitn = 8#4)) ∧
    (s.owPhase.crit = false → t.owPhase.crit = true → t.owPhase = .drive ∧ t.owCnt = 0) ∧
    (s.owPhase.crit = true → t.owPhase.crit = false →
      s.owPhase = .release ∧ s.owCnt + 1 = s.params.tRel s.owPrim) ∧
    (t.owPresent ≠ s.owPresent → s.owPhase = .release ∧ s.owPrim = .reset ∧
      s.params.tSmp .reset = some s.owCnt ∧ t.owPresent = present i.owIn s.owLmask) ∧
    (t.owRdbit ≠ s.owRdbit → s.owPhase = .release ∧ s.owPrim = .read ∧
      s.params.tSmp .read = some s.owCnt ∧ t.owRdbit = rdbit s.params.rdCombine i.owIn s.owLmask)

/-- The single-writer table of 10_state.md R20, for the elements that are no flags: each is written only by the agents
its row names (and by reset). -/
def Obligations.ElementsAreWrittenOnlyByTheirWriters : Prop :=
  ∀ (s t : State) (i : Input), s.inputAt 0 = i → i.rst = false → step s = .next t →
    (t.inBuf ≠ s.inBuf ∨ t.inCur ≠ s.inCur → i.rxValid = true ∧ t.out.rxReady = true) ∧
    (t.outBuf ≠ s.outBuf → i.writes 0x86#8 = true ∧ s.txEn = false) ∧
    (t.outCur ≠ s.outCur → i.writes 0x86#8 = true ∨ (i.txcValid = true ∧ t.out.txcReady = true)) ∧
    (t.owMask ≠ s.owMask → i.writes 0x81#8 = true ∧ s.owPhase = .idle) ∧
    (t.owData ≠ s.owData → (i.writes 0x82#8 = true ∧ s.owPhase = .idle) ∨
      (s.owPhase = .release ∧ s.owPrim = .read ∧ s.owOp = .recvbyte)) ∧
    (t.owOp ≠ s.owOp ∨ t.owLmask ≠ s.owLmask → ∃ op, op ≠ .noCommand ∧ i.commands op ∧ s.owPhase = .idle)

/-- 20_memory.md R72: nothing the host or the transceiver does in a tick can alter a command in flight: the one-wire
state after a tick that starts busy depends only on the one-wire state before it and on `ow_in`. -/
def Obligations.NothingDisturbsARunningCommand : Prop :=
  ∀ (s : State) (i j : Input) (t u : State), s.owPhase ≠ .idle → i.rst = false → j.rst = false → i.owIn = j.owIn →
    step (s.placeInput i) = .next t → step (s.placeInput j) = .next u →
    t.owPhase = u.owPhase ∧ t.owOp = u.owOp ∧ t.owPrim = u.owPrim ∧ t.owCnt = u.owCnt ∧ t.owBitn = u.owBitn ∧
    t.owLmask = u.owLmask ∧ t.owMask = u.owMask ∧ t.owData = u.owData ∧ t.owPresent = u.owPresent ∧
    t.owRdbit = u.owRdbit

/-! ## Transport, receive side -/

/-- 40_transport_receive.md R100, where the event occurs (R101) and the cursor is in its range (10_state.md R47
INV-1): the byte at the cursor; the end of the line at the terminator and at the 127th byte; nothing else written. -/
def Obligations.ReceiveEventEffect : Prop :=
  (∀ b : Byte, decode (.event (0b01#2 ++ b)) = .instr (.rxEvent b)) ∧
  ∀ (s : State) (b : Byte), s.rxEn = true → s.inReady = false → s.owPhase ≠ .drive → s.owPhase ≠ .release →
    s.inCur.toNat ≤ 126 → ∃ t, exec (.rxEvent b) s = .next t ∧
    t = { s with inBuf := t.inBuf, inCur := t.inCur, inReady := t.inReady, rxEn := t.rxEn } ∧
    (s.inCur.toNat + 1 = 127 ∨ b = 0x0A#8 →
      t.inCur = 0#7 ∧ t.inReady = true ∧ t.rxEn = false ∧
      ∀ k, t.inByte k =
        if k = s.inCur.toNat + 1 then s.params.endMark else if k = s.inCur.toNat then b else s.inByte k) ∧
    (s.inCur.toNat + 1 ≠ 127 → b ≠ 0x0A#8 →
      t.inCur.toNat = s.inCur.toNat + 1 ∧ t.inReady = false ∧ t.rxEn = true ∧
      ∀ k, t.inByte k = if k = s.inCur.toNat then b else s.inByte k)

/-- 40_transport_receive.md R101: in a tick without reset `rx_ready` is the conjunction of the four conditions; a byte
offered with it is received; in every other tick what the transceiver offers makes no difference to anything. -/
def Obligations.ReceiveEventOccursExactlyWhenReady : Prop :=
  (∀ (s : State) (i : Input), s.inputAt 0 = i → i.rst = false → ∃ t, step s = .next t ∧
    t.out.rxReady =
      (s.rxEn && !s.inReady && !decide (s.owPhase = .drive ∨ s.owPhase = .release) && !i.hReq) ∧
    (i.rxValid = true → t.out.rxReady = true → ∃ u, exec (.rxEvent i.rxData) (s.begin i) = .next u ∧
      t = u.owTick s.owPhase i.owIn)) ∧
  (∀ (s : State) (i : Input) (v : Bool) (b : Byte),
    i.rst = true ∨ i.hReq = true ∨ s.rxEn = false ∨ s.inReady = true ∨ s.owPhase = .drive ∨ s.owPhase = .release →
    step (s.placeInput { i with rxValid := v, rxData := b }) = step (s.placeInput i))

/-- 40_transport_receive.md R102, R103, R104: their encodings (`data[1:0]` alone is decoded) and their effects. -/
def Obligations.AckArmAckarmEffect : Prop :=
  (∀ d : Byte,
    (d.extractLsb' 0 2 = 0b01#2 → decode (.host (hostWord true 0x85#8 d)) = .instr .tpAck) ∧
    (d.extractLsb' 0 2 = 0b10#2 → decode (.host (hostWord true 0x85#8 d)) = .instr .tpArm) ∧
    (d.extractLsb' 0 2 = 0b11#2 → decode (.host (hostWord true 0x85#8 d)) = .instr .tpAckarm)) ∧
  ∀ s : State, exec .tpAck s = .next { s with inReady := false } ∧ exec .tpArm s = .next { s with rxEn := true } ∧
    exec .tpAckarm s = .next { s with inReady := false, rxEn := true }

/-- 10_state.md R42: a write to TP_CTRL, any data byte: bit 0 clears IN_READY, bit 1 sets RX_EN, the others are
ignored, a 0 does nothing, both bits act in one action, nothing is stored; and a read returns 0x00. -/
def Obligations.ControlWriteActsByItsBits : Prop :=
  ∀ (s : State) (i : Input), s.inputAt 0 = i → i.rst = false →
    (i.writes 0x85#8 = true → step s = .next
      ({ s.begin i with
        inReady := s.inReady && !i.hWdata.getLsbD 0, rxEn := s.rxEn || i.hWdata.getLsbD 1 }.owTick s.owPhase i.owIn)) ∧
    (i.hReq = true → i.hWe = false → i.hAddr = 0x85#8 →
      step s = .next (((s.begin i).answer 0x00#8).owTick s.owPhase i.owIn))

/-- The spec's own inferences 40_transport_receive.md R106 and R107, for every environment: from an empty line, over
any number of ticks without reset and acknowledgement, the bytes delivered are the line, stored in order. While the
line is open they are fewer than 127 and hold no terminator, and the cursor counts them. Once it has ended, it ended
at its first terminator or at its 127th byte, the end mark follows it, and no byte was taken after. -/
def Obligations.DeliveredBytesMakeOneLine : Prop :=
  ∀ (n : Nat) (s t : State), s.inCur = 0#7 → s.inReady = false → NoReset n s → NoAck n s → afterTicks n s = some t →
    (∀ k (h : k < (deliveredBytes n s).length), t.inByte k = (deliveredBytes n s)[k]) ∧
    (t.inReady = false → t.inCur.toNat = (deliveredBytes n s).length ∧ (deliveredBytes n s).length ≤ 126 ∧
      0x0A#8 ∉ deliveredBytes n s) ∧
    (t.inReady = true → t.inCur = 0#7 ∧ t.inByte (deliveredBytes n s).length = s.params.endMark ∧
      ((deliveredBytes n s).length = 127 ∨ (deliveredBytes n s).getLast? = some 0x0A#8) ∧
      (deliveredBytes n s).length ≤ 127 ∧ 0x0A#8 ∉ (deliveredBytes n s).dropLast)

/-- "The buffer must not be overwritten while unread" (10_state.md R23, 90_conflicts.md C2): while a line is
unacknowledged, over any number of ticks and whatever RX_EN is, no byte is taken and no byte of the input buffer
changes. -/
def Obligations.UnreadLineIsNeverOverwritten : Prop :=
  ∀ (n : Nat) (s : State), s.inReady = true → NoReset n s → NoAck n s → ∃ t, afterTicks n s = some t ∧
    t.inReady = true ∧ deliveredBytes n s = [] ∧ ∀ k, t.inByte k = s.inByte k

/-- `readLine()` of 30_encoding.md R88 on a line that is ready, in every phase of the one-wire unit and for every
environment: it returns the buffer's bytes up to and with the first terminator, or the 127 bytes of a truncated line,
and ends with the line acknowledged, reception re-armed unless a response will be sent, and the buffer unchanged. -/
def Obligations.ReadLineReturnsTheLine : Prop :=
  ∀ (s : State) (n : Nat) (willRespond : Bool), s.inReady = true → n ≤ 126 → (∀ k < n, s.inByte k ≠ 0x0A#8) →
    s.inByte n = 0x0A#8 ∨ n = 126 → ∃ t,
    readLine willRespond s = some (t, (List.range (n + 1)).map s.inByte) ∧
    t.inReady = false ∧ (willRespond = false → t.rxEn = true) ∧ (willRespond = true → t.rxEn = s.rxEn) ∧
    ∀ k, t.inByte k = s.inByte k

/-! ## Transport, transmit side -/

/-- 41_transport_transmit.md R120: its word; with `TX_EN = 1` a push is dropped; with `TX_EN = 0` and the cursor in
its range (10_state.md R47 INV-2): the byte at the cursor; a terminator starts the line; so does the 127th byte, with
a terminator forced at index 127; nothing else written. -/
def Obligations.PushEffect : Prop :=
  (∀ b : Byte, decode (.host (hostWord true 0x86#8 b)) = .instr (.tpPush b)) ∧
  (∀ (s : State) (b : Byte), s.txEn = true → exec (.tpPush b) s = .next s) ∧
  ∀ (s : State) (b : Byte), s.txEn = false → s.outCur.toNat ≤ 126 → ∃ t, exec (.tpPush b) s = .next t ∧
    t = { s with outBuf := t.outBuf, outCur := t.outCur, txEn := t.txEn,
                 out := { s.out with txWr := t.out.txWr, txData := t.out.txData } } ∧
    (b = 0x0A#8 ∨ s.outCur.toNat + 1 = 127 →
      t.outCur = 0#7 ∧ t.txEn = true ∧ t.out.txWr = true ∧
      t.out.txData = (if s.outCur = 0#7 then b else s.outByte 0)) ∧
    (b = 0x0A#8 ∨ s.outCur.toNat + 1 ≠ 127 →
      ∀ k, t.outByte k = if k = s.outCur.toNat then b else s.outByte k) ∧
    (b ≠ 0x0A#8 → s.outCur.toNat + 1 = 127 →
      ∀ k, t.outByte k = if k = 127 then 0x0A#8 else if k = s.outCur.toNat then b else s.outByte k) ∧
    (b ≠ 0x0A#8 → s.outCur.toNat + 1 ≠ 127 →
      t.outCur.toNat = s.outCur.toNat + 1 ∧ t.txEn = false ∧ t.out = s.out)

/-- 41_transport_transmit.md R121: a push while a line is being sent is dropped. -/
def Obligations.PushWhileSendingIsDropped : Prop :=
  ∀ (s : State) (b : Byte), s.txEn = true → exec (.tpPush b) s = .next s

/-- 41_transport_transmit.md R122, where the event occurs (R123): the next buffered byte, or the end of the line after
its terminator; nothing else written. -/
def Obligations.TransmitCompleteEffect : Prop :=
  (∀ b : Byte, decode (.event (0b10#2 ++ b)) = .instr .txDone) ∧
  ∀ s : State, s.txEn = true → s.owPhase ≠ .drive → s.owPhase ≠ .release → ∃ t, exec .txDone s = .next t ∧
    t = { s with outCur := t.outCur, txEn := t.txEn, rxEn := t.rxEn,
                 out := { s.out with txWr := t.out.txWr, txData := t.out.txData } } ∧
    (s.outByte s.outCur.toNat ≠ 0x0A#8 → s.outCur.toNat ≠ 127 →
      t.outCur.toNat = s.outCur.toNat + 1 ∧ t.txEn = true ∧ t.rxEn = s.rxEn ∧ t.out.txWr = true ∧
      t.out.txData = s.outByte (s.outCur.toNat + 1)) ∧
    (s.outByte s.outCur.toNat = 0x0A#8 ∨ s.outCur.toNat = 127 →
      t.outCur = 0#7 ∧ t.txEn = false ∧ t.rxEn = true ∧ t.out = s.out)

/-- 41_transport_transmit.md R123: in a tick without reset `txc_ready` is the conjunction of the four conditions; a report
raised with it is taken; in every other tick a report makes no difference to anything. -/
def Obligations.TransmitCompleteOccursExactlyWhenReady : Prop :=
  (∀ (s : State) (i : Input), s.inputAt 0 = i → i.rst = false → ∃ t, step s = .next t ∧
    t.out.txcReady =
      (s.txEn && !decide (s.owPhase = .drive ∨ s.owPhase = .release) && !i.hReq && !(i.rxValid && t.out.rxReady)) ∧
    (i.txcValid = true → t.out.txcReady = true → ∃ u, exec .txDone (s.begin i) = .next u ∧
      t = u.owTick s.owPhase i.owIn)) ∧
  (∀ (s : State) (i : Input) (v : Bool),
    i.rst = true ∨ i.hReq = true ∨ s.txEn = false ∨ s.owPhase = .drive ∨ s.owPhase = .release ∨
      (i.rxValid = true ∧ s.rxEn = true ∧ s.inReady = false) →
    step (s.placeInput { i with txcValid := v }) = step (s.placeInput i))

/-- The MODEL's choice (log 10): `exec` of an event operation in a state in which the event may not occur, which `step` never
asks for and to which the spec gives no meaning, leaves the state as it is. -/
def Obligations.EventsThatMayNotOccurChangeNothing : Prop :=
  (∀ (s : State) (b : Byte), s.rxEn = false ∨ s.inReady = true ∨ s.owPhase = .drive ∨ s.owPhase = .release →
    exec (.rxEvent b) s = .next s) ∧
  (∀ s : State, s.txEn = false ∨ s.owPhase = .drive ∨ s.owPhase = .release → exec .txDone s = .next s)

/-- The spec's own inference 41_transport_transmit.md R125, with `Write(line)` as the pushes of R124 into an empty
buffer and no critical section between: a line with a terminator among its first 127 bytes is loaded exactly up to
that terminator, one byte with its last push and one with each of its TX.DONE but the last; one with 127 bytes and no
terminator among them is cut there and ended with a terminator; a shorter one without terminator loads nothing and
stays buffered. -/
def Obligations.WriteLineLoadsExactlyTheLine : Prop :=
  ∀ (s : State) (bytes pushed : List Byte), s.outCur = 0#7 → s.txEn = false → s.owPhase ≠ .drive → s.owPhase ≠ .release →
    pushed = pushedBytes 127 bytes →
    pushed <+: bytes ∧ 0x0A#8 ∉ pushed.dropLast ∧
    (0x0A#8 ∈ bytes.take 127 → ∃ t,
      runOps (writeLine s bytes ++ List.replicate pushed.length .txDone) s = some (t, pushed) ∧
      pushed.getLast? = some 0x0A#8 ∧ t.txEn = false ∧ t.outCur = 0#7 ∧ t.rxEn = true) ∧
    (0x0A#8 ∉ bytes.take 127 → 127 ≤ bytes.length → ∃ t,
      runOps (writeLine s bytes ++ List.replicate 128 .txDone) s = some (t, bytes.take 127 ++ [0x0A#8]) ∧
      t.txEn = false ∧ t.outCur = 0#7 ∧ t.rxEn = true) ∧
    (0x0A#8 ∉ bytes.take 127 → bytes.length < 127 → ∃ t, runOps (writeLine s bytes) s = some (t, []) ∧
      t.outCur.toNat = bytes.length ∧ t.txEn = false ∧ ∀ k (h : k < bytes.length), t.outByte k = bytes[k])

/-- 41_transport_transmit.md R124, in every phase of the one-wire unit and from every cursor, so also where a partial line
waits: `Write(line)` pushes a prefix of the line; no push but the last starts a transmission; it starts one exactly with a
terminator or with the push that fills index 126, and otherwise has pushed all of the line; once it has, further pushes are
dropped. At the host port the same pushes, one a tick, complete and leave the same transport state. -/
def Obligations.WriteStopsAtThePushThatStarts : Prop :=
  ∀ (s : State) (bytes pushed : List Byte), s.txEn = false → s.outCur.toNat ≤ 126 →
    pushed = pushedBytes (127 - s.outCur.toNat) bytes →
    pushed <+: bytes ∧
    (∀ k < pushed.length, ∃ u, runOps ((writeLine s bytes).take k) s = some (u, []) ∧ u.txEn = false ∧
      u.outCur.toNat = s.outCur.toNat + k) ∧
    ∃ t loaded, runOps (writeLine s bytes) s = some (t, loaded) ∧
      (t.txEn = true ↔ pushed.getLast? = some 0x0A#8 ∨ s.outCur.toNat + pushed.length = 127) ∧
      (t.txEn = false → pushed = bytes ∧ loaded = [] ∧ t.outCur.toNat = s.outCur.toNat + bytes.length) ∧
      (t.txEn = true → t.outCur = 0#7 ∧ loaded = [t.outByte 0] ∧ ∀ b, exec (.tpPush b) t = .next t) ∧
      (∀ k < s.outCur.toNat, t.outByte k = s.outByte k) ∧
      (∀ k (h : k < pushed.length), t.outByte (s.outCur.toNat + k) = pushed[k]) ∧
      ∃ v, write bytes s = some v ∧ v.txEn = t.txEn ∧ v.outCur = t.outCur ∧ ∀ k, v.outByte k = t.outByte k

/-- 41_transport_transmit.md R121, R124, 30_encoding.md R88 and 60_exceptions.md R224. A Write while a line is being sent pushes,
from every cursor, its line up to and with the first terminator, or all of it; every push is dropped, and the host port's pushes
leave the transmit side as it was. A Write slower than one push a tick always completes; with no wait it is the Write of one push
a tick; from TX_EN = 0 it leaves the same transmit side, whatever comes in between. -/
def Obligations.WriteWhileSendingAndWriteAtAnyPace : Prop :=
  (∀ (s : State) (bytes pushed : List Byte), s.txEn = true → pushed = droppedBytes bytes →
    pushed <+: bytes ∧ writeLine s bytes = pushed.map .tpPush ∧ 0x0A#8 ∉ pushed.dropLast ∧
    (0x0A#8 ∈ bytes → pushed.getLast? = some 0x0A#8) ∧ (0x0A#8 ∉ bytes → pushed = bytes) ∧
    (∃ t, runOps (writeLine s bytes) s = some (t, []) ∧ t.quiet = s.quiet) ∧
    ∃ v, write bytes s = some v ∧ v.txEn = true ∧ v.outCur = s.outCur ∧ v.rxEn = s.rxEn ∧ ∀ k, v.outByte k = s.outByte k) ∧
  (∀ (s : State) (paced : List (Nat × Byte)), ∃ t, writePaced paced s = some t ∧
    (s.txEn = false → ∃ v, write (paced.map Prod.snd) s = some v ∧ t.txEn = v.txEn ∧ t.outCur = v.outCur ∧
      ∀ k, t.outByte k = v.outByte k)) ∧
  ∀ (s : State) (bytes : List Byte), writePaced (bytes.map (fun b => (0, b))) s = write bytes s

/-- 10_state.md R46 XCVR-2 and 41_transport_transmit.md R123, R125, for every environment: from a state that sends
nothing, over any number of ticks without reset, the block has taken exactly one report for each byte it loaded, but
for the byte in flight while TX_EN is 1. -/
def Obligations.OneReportForEachLoadedByte : Prop :=
  ∀ (n : Nat) (s t : State), s.txEn = false → NoReset n s → afterTicks n s = some t →
    (loadedBytes n s).length = reportsTaken n s + (if t.txEn then 1 else 0)

/-- 41_transport_transmit.md R123, its last sentence: under the transceiver's contract (XCVR-2 and XCVR-4 of
10_state.md R46, a premise about the environment: log 16), from a state that sends nothing and owes no report, no
report is raised in a tick that starts with TX_EN = 0. -/
def Obligations.NoReportIsRaisedWhileNotSending : Prop :=
  ∀ (n : Nat) (s t : State), s.txEn = false → XcvrReportsHonestly 0 (n + 1) s → NoReset n s → afterTicks n s = some t →
    t.txEn = false → (s.inputAt n).txcValid = false

/-- 41_transport_transmit.md R122 over whole runs, for every environment: a line in flight whose terminator stands at
index `last` loads `OUT_BUF[1], OUT_BUF[2], ...` in order, one byte per report taken, whatever the host does
meanwhile; and the report after the terminator's ends it. -/
def Obligations.LineInFlightDrainsInOrder : Prop :=
  ∀ (n last : Nat) (s t : State), s.txEn = true → s.outCur = 0#7 → last ≤ 127 → s.outByte last = 0x0A#8 →
    (∀ k < last, s.outByte k ≠ 0x0A#8) → NoReset n s → afterTicks n s = some t → reportsTaken n s ≤ last →
    t.txEn = true ∧ t.outCur.toNat = reportsTaken n s ∧
    loadedBytes n s = (List.range (reportsTaken n s)).map (fun k => s.outByte (k + 1)) ∧
    (∀ u, NoReset (n + 1) s → reportsTaken n s = last → reportsTaken (n + 1) s = last + 1 →
      afterTicks (n + 1) s = some u →
      u.txEn = false ∧ u.outCur = 0#7 ∧ u.rxEn = true ∧ loadedBytes (n + 1) s = loadedBytes n s)

/-! ## The critical section -/

/-- 60_exceptions.md R227: in a tick that starts in DRIVE or RELEASE neither event is taken, whatever the enables, and
`ev_suspend` is 1; a host access is performed as in any other tick; in GAP the suspension is lifted. -/
def Obligations.CriticalSectionSuspendsBothEvents : Prop :=
  ∀ (s : State) (i : Input), s.inputAt 0 = i → ∃ t, step s = .next t ∧
    (s.owPhase = .drive ∨ s.owPhase = .release →
      t.out.rxReady = false ∧ t.out.txcReady = false ∧ t.out.evSuspend = true ∧
      (i.rst = false → i.hReq = false → t.inBuf = s.inBuf ∧ t.inCur = s.inCur ∧ t.inReady = s.inReady ∧
        t.rxEn = s.rxEn ∧ t.outBuf = s.outBuf ∧ t.outCur = s.outCur ∧ t.txEn = s.txEn ∧ t.out.txWr = false) ∧
      (i.rst = false → i.hReq = true → ∃ u,
        exec (decodeHost (hostWord i.hWe i.hAddr i.hWdata)) (s.begin i) = .next u ∧ t = u.owTick s.owPhase i.owIn) ∧
      (i.rst = false → i.hReq = true → i.hWe = false → i.hAddr = 0x84#8 →
        t.out.hRdata = 0b00000#5 ++ (BitVec.ofBool s.txEn ++ (BitVec.ofBool s.rxEn ++ BitVec.ofBool s.inReady)))) ∧
    (s.owPhase = .gap → i.rst = false → i.hReq = false →
      t.out.evSuspend = false ∧ t.out.rxReady = (s.rxEn && !s.inReady) ∧
      t.out.txcReady = (s.txEn && !(i.rxValid && t.out.rxReady)))

/-! ## One-wire commands -/

/-- 42_onewire_primitives.md R140 for the six commands: accepted in phase IDLE, ignored in every other. -/
def Obligations.CommandsAreAcceptedWhenIdle : Prop :=
  ∀ s : State,
    (s.owPhase = .idle →
      exec .owReset s = .next { s with
        owOp := .reset, owLmask := s.owMask, owBitn := 0#4, owCnt := 0, owPrim := .reset, owPhase := .drive } ∧
      exec .owWrite0 s = .next { s with
        owOp := .write0, owLmask := s.owMask, owBitn := 0#4, owCnt := 0, owPrim := .write0, owPhase := .drive } ∧
      exec .owWrite1 s = .next { s with
        owOp := .write1, owLmask := s.owMask, owBitn := 0#4, owCnt := 0, owPrim := .write1, owPhase := .drive } ∧
      exec .owReadbit s = .next { s with
        owOp := .readbit, owLmask := s.owMask, owBitn := 0#4, owCnt := 0, owPrim := .read, owPhase := .drive } ∧
      exec .owSendbyte s = .next { s with
        owOp := .sendbyte, owLmask := s.owMask, owBitn := 0#4, owCnt := 0,
        owPrim := if s.owData.getLsbD 0 then .write1 else .write0, owPhase := .drive } ∧
      exec .owRecvbyte s = .next { s with
        owOp := .recvbyte, owLmask := s.owMask, owBitn := 0#4, owCnt := 0, owPrim := .read, owPhase := .drive }) ∧
    (s.owPhase ≠ .idle →
      ∀ i ∈ [Instr.owReset, .owWrite0, .owWrite1, .owReadbit, .owSendbyte, .owRecvbyte], exec i s = .next s)

/-- 42_onewire_primitives.md R140 at the host port: a write of a defined opcode in a tick that starts idle is accepted
and the sequencer does not advance in that tick; a write of any other byte, and any write while busy, has no effect at
all. -/
def Obligations.CommandWriteIsAcceptedOrIgnored : Prop :=
  ∀ (s : State) (i : Input), s.inputAt 0 = i → i.rst = false → i.writes 0x80#8 = true →
    (∀ op, op ≠ .noCommand → s.owPhase = .idle → i.hWdata = op.code.setWidth 8 →
      step s = .next { s.begin i with
        owOp := op, owLmask := s.owMask, owBitn := 0#4, owCnt := 0,
        owPrim := match op with
          | .noCommand | .reset => .reset
          | .write0 => .write0
          | .write1 => .write1
          | .readbit | .recvbyte => .read
          | .sendbyte => if s.owData.getLsbD 0 then .write1 else .write0
        owPhase := .drive }) ∧
    ((∀ op : OwOp, op ≠ .noCommand → i.hWdata ≠ op.code.setWidth 8) ∨ s.owPhase ≠ .idle →
      step s = .next ((s.begin i).owTick s.owPhase i.owIn))

/-- 42_onewire_primitives.md R141: what the one-wire state is after a tick that starts in IDLE with no command
accepted, and after a tick that starts in DRIVE, whatever else happens in the tick. -/
def Obligations.SequencerTickInIdleAndDrive : Prop :=
  ∀ (s : State) (i : Input), s.inputAt 0 = i → i.rst = false → ∃ t, step s = .next t ∧
    (s.owPhase = .idle → (∀ op, op ≠ .noCommand → ¬ i.commands op) →
      t.owPhase = .idle ∧ t.owCnt = s.owCnt ∧ t.owOp = s.owOp ∧ t.owPrim = s.owPrim ∧ t.owBitn = s.owBitn ∧
      t.owLmask = s.owLmask ∧ t.owPresent = s.owPresent ∧ t.owRdbit = s.owRdbit ∧ t.out.owOe = 0#8) ∧
    (s.owPhase = .drive →
      t.out.owOe = s.owLmask ∧ t.owOp = s.owOp ∧ t.owPrim = s.owPrim ∧ t.owBitn = s.owBitn ∧ t.owLmask = s.owLmask ∧
      t.owPresent = s.owPresent ∧ t.owRdbit = s.owRdbit ∧ t.owData = s.owData ∧ t.owMask = s.owMask ∧
      (s.owCnt + 1 = s.params.tDrv s.owPrim → t.owPhase = .release ∧ t.owCnt = 0) ∧
      (s.owCnt + 1 ≠ s.params.tDrv s.owPrim → t.owPhase = .drive ∧ t.owCnt = s.owCnt + 1))

/-- 42_onewire_primitives.md R142 and R143: what the one-wire state is after a tick that starts in RELEASE, whatever
else happens in the tick: the sample in its one tick, then the count or the end of the primitive. -/
def Obligations.SequencerTickInRelease : Prop :=
  ∀ (s : State) (i : Input), s.inputAt 0 = i → i.rst = false → s.owPhase = .release → ∃ t, step s = .next t ∧
    t.out.owOe = 0#8 ∧ t.owOp = s.owOp ∧ t.owPrim = s.owPrim ∧ t.owLmask = s.owLmask ∧ t.owMask = s.owMask ∧
    t.owPresent = (if s.owPrim = .reset ∧ s.owCnt = s.params.timing.sampleReset then present i.owIn s.owLmask
      else s.owPresent) ∧
    t.owRdbit = (if s.owPrim = .read ∧ s.owCnt = s.params.timing.sampleRead then
      rdbit s.params.rdCombine i.owIn s.owLmask else s.owRdbit) ∧
    t.owData = (if s.owPrim = .read ∧ s.owCnt = s.params.timing.sampleRead ∧ s.owOp = .recvbyte then
      BitVec.ofBool (rdbit s.params.rdCombine i.owIn s.owLmask) ++ s.owData.extractLsb' 1 7 else s.owData) ∧
    (s.owCnt + 1 ≠ s.params.tRel s.owPrim →
      t.owPhase = .release ∧ t.owCnt = s.owCnt + 1 ∧ t.owBitn = s.owBitn) ∧
    (s.owCnt + 1 = s.params.tRel s.owPrim → t.owCnt = 0 ∧
      (s.owOp = .sendbyte ∨ s.owOp = .recvbyte →
        t.owBitn = s.owBitn + 1#4 ∧ t.owPhase = if s.owBitn + 1#4 = 8#4 then .idle else .gap) ∧
      (s.owOp ≠ .sendbyte → s.owOp ≠ .recvbyte → t.owBitn = s.owBitn ∧ t.owPhase = .idle))

/-- 43_onewire_bytes.md R172: what a tick that starts in GAP does to the one-wire state, whatever else happens in it,
for the two commands that have a gap: the count, or the start of the next slot with the primitive of its bit; the
block shows BUSY, not CRIT, and is as ready for events as in IDLE. -/
def Obligations.SequencerTickInGap : Prop :=
  ∀ (s : State) (i : Input), s.inputAt 0 = i → i.rst = false → s.owPhase = .gap →
    s.owOp = .sendbyte ∨ s.owOp = .recvbyte → ∃ t, step s = .next t ∧
    t.out.owOe = 0#8 ∧ t.out.owBusy = true ∧ t.out.evSuspend = false ∧
    t.out.rxReady = (s.rxEn && !s.inReady && !i.hReq) ∧
    t.out.txcReady = (s.txEn && !i.hReq && !(i.rxValid && t.out.rxReady)) ∧
    t.owOp = s.owOp ∧ t.owBitn = s.owBitn ∧ t.owLmask = s.owLmask ∧ t.owMask = s.owMask ∧ t.owData = s.owData ∧
    t.owPresent = s.owPresent ∧ t.owRdbit = s.owRdbit ∧
    (s.owCnt + 1 ≠ s.params.tGap → t.owPhase = .gap ∧ t.owCnt = s.owCnt + 1 ∧ t.owPrim = s.owPrim) ∧
    (s.owCnt + 1 = s.params.tGap → t.owPhase = .drive ∧ t.owCnt = 0 ∧
      (s.owOp = .recvbyte → t.owPrim = .read) ∧
      (s.owOp = .sendbyte → t.owPrim = if s.owData.getLsbD s.owBitn.toNat then .write1 else .write0))

/-- The spec's own inference 42_onewire_primitives.md R150, for every environment without reset: from the first driven
tick, a primitive drives exactly its lines for exactly `T_DRV` ticks and no line for exactly `T_REL` ticks, and ends
in IDLE or GAP. -/
def Obligations.WaveformOfOnePrimitive : Prop :=
  ∀ (s : State) (n : Nat), s.owPhase = .drive → s.owCnt = 0 →
    n ≤ s.params.tDrv s.owPrim + s.params.tRel s.owPrim → NoReset n s → ∃ t, afterTicks n s = some t ∧
    (n < s.params.tDrv s.owPrim → t.owPhase = .drive ∧ t.owCnt = n ∧ t.owOe = s.owLmask) ∧
    (s.params.tDrv s.owPrim ≤ n → n < s.params.tDrv s.owPrim + s.params.tRel s.owPrim →
      t.owPhase = .release ∧ t.owCnt = n - s.params.tDrv s.owPrim ∧ t.owOe = 0#8) ∧
    (n = s.params.tDrv s.owPrim + s.params.tRel s.owPrim →
      (t.owPhase = .idle ∨ t.owPhase = .gap) ∧ t.owCnt = 0 ∧ t.owOe = 0#8)

/-- 42_onewire_primitives.md R144, for every environment without reset: OW.RESET accepted in tick 0 drives for `T_DRV`
ticks, releases for `T_REL`, and is idle after; OW_PRESENT keeps its value up to the sample tick and holds the
sample's result from the next tick on; OW_RDBIT and OW_DATA stay. -/
def Obligations.ResetCommandRun : Prop :=
  ∀ (s : State) (n : Nat), s.owPhase = .idle → (s.inputAt 0).commands .reset →
    n ≤ s.params.tDrv .reset + s.params.tRel .reset → NoReset (n + 1) s → ∃ t, afterTicks (n + 1) s = some t ∧
    t.owOp = .reset ∧ t.owLmask = s.owMask ∧ t.owBitn = 0#4 ∧
    (n < s.params.tDrv .reset → t.owPhase = .drive) ∧
    (s.params.tDrv .reset ≤ n → n < s.params.tDrv .reset + s.params.tRel .reset → t.owPhase = .release) ∧
    (n = s.params.tDrv .reset + s.params.tRel .reset → t.owPhase = .idle) ∧
    t.owPresent = (if s.params.tDrv .reset + s.params.timing.sampleReset < n then
        present (s.inputAt (1 + s.params.tDrv .reset + s.params.timing.sampleReset)).owIn s.owMask
      else s.owPresent) ∧
    t.owRdbit = s.owRdbit ∧ t.owData = s.owData

/-- 42_onewire_primitives.md R145 and R146, for every environment without reset: the two write commands drive for
their `T_DRV`, release for their `T_REL`, take no sample and are idle after. -/
def Obligations.WriteCommandRun : Prop :=
  ∀ (s : State) (n : Nat) (op : OwOp) (prim : Prim), (op = .write0 ∧ prim = .write0) ∨ (op = .write1 ∧ prim = .write1) →
    s.owPhase = .idle → (s.inputAt 0).commands op →
    n ≤ s.params.tDrv prim + s.params.tRel prim → NoReset (n + 1) s → ∃ t, afterTicks (n + 1) s = some t ∧
    t.owOp = op ∧ t.owLmask = s.owMask ∧ t.owBitn = 0#4 ∧
    (n < s.params.tDrv prim → t.owPhase = .drive) ∧
    (s.params.tDrv prim ≤ n → n < s.params.tDrv prim + s.params.tRel prim → t.owPhase = .release) ∧
    (n = s.params.tDrv prim + s.params.tRel prim → t.owPhase = .idle) ∧
    t.owPresent = s.owPresent ∧ t.owRdbit = s.owRdbit ∧ t.owData = s.owData

/-- 42_onewire_primitives.md R147, for every environment without reset: OW.READBIT drives for `T_DRV`, releases for
`T_REL` and is idle after; OW_RDBIT holds the sample's bit from the tick after the sample; OW_PRESENT and OW_DATA
stay. -/
def Obligations.ReadbitCommandRun : Prop :=
  ∀ (s : State) (n : Nat), s.owPhase = .idle → (s.inputAt 0).commands .readbit →
    n ≤ s.params.tDrv .read + s.params.tRel .read → NoReset (n + 1) s → ∃ t, afterTicks (n + 1) s = some t ∧
    t.owOp = .readbit ∧ t.owLmask = s.owMask ∧ t.owBitn = 0#4 ∧
    (n < s.params.tDrv .read → t.owPhase = .drive) ∧
    (s.params.tDrv .read ≤ n → n < s.params.tDrv .read + s.params.tRel .read → t.owPhase = .release) ∧
    (n = s.params.tDrv .read + s.params.tRel .read → t.owPhase = .idle) ∧
    t.owRdbit = (if s.params.tDrv .read + s.params.timing.sampleRead < n then
        rdbit s.params.rdCombine (s.inputAt (1 + s.params.tDrv .read + s.params.timing.sampleRead)).owIn s.owMask
      else s.owRdbit) ∧
    t.owPresent = s.owPresent ∧ t.owData = s.owData

/-- 43_onewire_bytes.md R170 and R172, with the slots at the times the spec infers in R174 and the bit order it infers in
R173, for every environment without reset: OW.SENDBYTE accepted in tick 0
runs eight slots in bit order, slot `k` being WRITE1 if bit `k` of OW_DATA is 1 and WRITE0 if it is 0, with a gap
after each of the first seven; OW_BITN counts the slots done; then it is idle with OW_BITN = 8; OW_DATA is unchanged
throughout. -/
def Obligations.SendbyteCommandRun : Prop :=
  ∀ (s : State) (k m : Nat) (slot : Nat → Prim), s.owPhase = .idle → (s.inputAt 0).commands .sendbyte →
    (∀ j, slot j = if s.owData.getLsbD j then .write1 else .write0) → k ≤ 7 →
    m < s.params.tDrv (slot k) + s.params.tRel (slot k) + s.params.tGap →
    k < 7 ∨ m ≤ s.params.tDrv (slot k) + s.params.tRel (slot k) →
    NoReset (slotStart s.params slot k + m + 1) s →
    ∃ t, afterTicks (slotStart s.params slot k + m + 1) s = some t ∧ InSlot t k m (slot k) ∧
      t.owOp = .sendbyte ∧ t.owLmask = s.owMask ∧ t.owData = s.owData ∧ t.params = s.params ∧
      t.owPresent = s.owPresent ∧ t.owRdbit = s.owRdbit

/-- 43_onewire_bytes.md R171 and R172, with the slots at the times the spec infers in R174 and the bit order it infers in
R173, for every environment without reset: OW.RECVBYTE accepted in tick 0
runs eight READ slots with a gap after each of the first seven, each as long as the next; OW_BITN counts the slots
done. After `j` samples the top `j` bits of OW_DATA are the bits sampled, the first lowest, its other bits the top
bits of the old value; OW_RDBIT is the last bit sampled; OW_PRESENT stays. -/
def Obligations.RecvbyteCommandRun : Prop :=
  ∀ (s : State) (k m j : Nat), s.owPhase = .idle → (s.inputAt 0).commands .recvbyte → k ≤ 7 →
    m < s.params.tDrv .read + s.params.tRel .read + s.params.tGap →
    k < 7 ∨ m ≤ s.params.tDrv .read + s.params.tRel .read →
    j = (if m ≤ s.params.tDrv .read + s.params.timing.sampleRead then k else k + 1) →
    NoReset (k * (s.params.tDrv .read + s.params.tRel .read + s.params.tGap) + m + 1) s →
    ∃ t, afterTicks (k * (s.params.tDrv .read + s.params.tRel .read + s.params.tGap) + m + 1) s = some t ∧
      InSlot t k m .read ∧ t.owOp = .recvbyte ∧ t.owLmask = s.owMask ∧ t.params = s.params ∧
      t.owPresent = s.owPresent ∧
      (∀ b < 8, t.owData.getLsbD b = if b + j < 8 then s.owData.getLsbD (b + j) else sampleOfSlot s (b + j - 8)) ∧
      t.owRdbit = (if j = 0 then s.owRdbit else sampleOfSlot s (j - 1))

/-- 43_onewire_bytes.md R171, and the spec's own inferences R173 and R174 from it: after `8 * (T_DRV + T_REL) + 7 *
T_GAP` ticks the received byte stands in OW_DATA, bit `k` of it being the bit sampled in slot `k`, whatever OW_DATA
held before; OW_RDBIT is its bit 7. -/
def Obligations.RecvbyteCollectsTheSampledBits : Prop :=
  ∀ s : State, s.owPhase = .idle → (s.inputAt 0).commands .recvbyte →
    NoReset (8 * (s.params.tDrv .read + s.params.tRel .read) + 7 * s.params.tGap + 1) s →
    ∃ t, afterTicks (8 * (s.params.tDrv .read + s.params.tRel .read) + 7 * s.params.tGap + 1) s = some t ∧
      t.owPhase = .idle ∧ t.owBitn = 8#4 ∧ (∀ k < 8, t.owData.getLsbD k = sampleOfSlot s k) ∧
      t.owRdbit = t.owData.getLsbD 7

/-- `presenceDetect(m)` of 30_encoding.md R88 from an idle state, for every environment: it completes, whether or not
a device answers, and its result is whether every targeted line was low in the sample tick and some line targeted. -/
def Obligations.PresenceDetectCompletesWithTheSample : Prop :=
  ∀ (s : State) (m : Byte) (fuel : Nat), s.owPhase = .idle → s.params.tDrv .reset + s.params.tRel .reset < fuel →
    ∃ t, presenceDetect fuel m s =
        some (t, present (s.inputAt (2 + s.params.tDrv .reset + s.params.timing.sampleReset)).owIn m) ∧
      t.owPhase = .idle ∧ t.owMask = m ∧
      t.owPresent = present (s.inputAt (2 + s.params.tDrv .reset + s.params.timing.sampleReset)).owIn m

/-- `sendByte(m, b)` of 30_encoding.md R88 from an idle state, for every environment: it completes within the time of
eight of the longer slots and seven gaps, and leaves the byte in OW_DATA, eight bits done, and the results as they
were. -/
def Obligations.SendBytePseudoOperationCompletes : Prop :=
  ∀ (s : State) (m b : Byte) (fuel : Nat), s.owPhase = .idle →
    8 * max (s.params.tDrv .write0 + s.params.tRel .write0) (s.params.tDrv .write1 + s.params.tRel .write1) +
      7 * s.params.tGap < fuel →
    ∃ t, sendByte fuel m b s = some t ∧ t.owPhase = .idle ∧ t.owOp = .sendbyte ∧ t.owMask = m ∧ t.owLmask = m ∧
      t.owData = b ∧ t.owBitn = 8#4 ∧ t.owPresent = s.owPresent ∧ t.owRdbit = s.owRdbit

/-- `receiveByte(m)` of 30_encoding.md R88 from an idle state, for every environment: it completes, and bit `k` of the
byte it returns is the bit sampled in slot `k` of the command, under the mask `m`. -/
def Obligations.ReceiveBytePseudoOperationReturnsTheBits : Prop :=
  ∀ (s : State) (m : Byte) (fuel : Nat), s.owPhase = .idle →
    8 * (s.params.tDrv .read + s.params.tRel .read) + 7 * s.params.tGap < fuel →
    ∃ t b, receiveByte fuel m s = some (t, b) ∧ t.owPhase = .idle ∧ t.owData = b ∧ t.owBitn = 8#4 ∧
      ∀ k < 8, b.getLsbD k = rdbit s.params.rdCombine
        (s.inputAt (2 + k * (s.params.tDrv .read + s.params.tRel .read + s.params.tGap) + s.params.tDrv .read +
          s.params.timing.sampleRead)).owIn m

/-- 42_onewire_primitives.md R148: the two functions; with exactly one targeted line the bit is that line's level
under both settings; they agree whenever all targeted lines show one level and differ where the lines disagree; for
the empty mask ANY_HIGH gives 0 and ALL_HIGH gives 1; lines outside the mask never influence the result. -/
def Obligations.ReadBitOfTheTargetedLines : Prop :=
  (∀ v m : Byte, rdbit .anyHigh v m = decide (v &&& m ≠ 0#8) ∧ rdbit .allHigh v m = decide (v &&& m = m)) ∧
  (∀ v m : Byte, (∃ k < 8, m.getLsbD k = true ∧ v.getLsbD k = true) → (∃ k < 8, m.getLsbD k = true ∧ v.getLsbD k = false) →
    rdbit .anyHigh v m = true ∧ rdbit .allHigh v m = false) ∧
  (∀ (c : Combine) (v : Byte) (k : Nat), k < 8 → rdbit c v (BitVec.twoPow 8 k) = v.getLsbD k) ∧
  (∀ (c : Combine) (v m : Byte) (level : Bool), m ≠ 0#8 → (∀ k < 8, m.getLsbD k = true → v.getLsbD k = level) →
    rdbit c v m = level) ∧
  (∀ v : Byte, rdbit .anyHigh v 0#8 = false ∧ rdbit .allHigh v 0#8 = true) ∧
  (∀ (c : Combine) (v w m : Byte), (∀ k < 8, m.getLsbD k = true → v.getLsbD k = w.getLsbD k) →
    rdbit c v m = rdbit c w m)

/-- 42_onewire_primitives.md R149: presence is true exactly when some line is targeted and every targeted line is low. -/
def Obligations.PresentWhenEveryTargetedLineIsLow : Prop :=
  ∀ v m : Byte, present v m = true ↔ m ≠ 0#8 ∧ ∀ k < 8, m.getLsbD k = true → v.getLsbD k = false

/-! ## Host register operations -/

/-- 44_host_access.md R190 and R192: the mask and the data byte are written in phase IDLE and the write is ignored in
every other; nothing else changes; and the words that name the two operations. -/
def Obligations.MaskAndDataWrites : Prop :=
  ∀ (s : State) (v : Byte),
    decode (.host (hostWord true 0x81#8 v)) = .instr (.owSetmask v) ∧
    decode (.host (hostWord true 0x82#8 v)) = .instr (.owSetdata v) ∧
    (s.owPhase = .idle → exec (.owSetmask v) s = .next { s with owMask := v } ∧
      exec (.owSetdata v) s = .next { s with owData := v }) ∧
    (s.owPhase ≠ .idle → exec (.owSetmask v) s = .next s ∧ exec (.owSetdata v) s = .next s)

/-- 40_transport_receive.md R105 and 44_host_access.md R191, R193 to R198: the words of the reads, whatever their data
field; and every read answers on `h_rdata` with its register and changes nothing else. -/
def Obligations.ReadsAnswerTheirRegister : Prop :=
  (∀ (k : BitVec 7) (d : Byte),
    decode (.host (hostWord false (0b0#1 ++ k) d)) = .instr (.tpRdbuf k) ∧
    decode (.host (hostWord false 0x80#8 d)) = .instr .owGetcmd ∧
    decode (.host (hostWord false 0x81#8 d)) = .instr .owGetmask ∧
    decode (.host (hostWord false 0x82#8 d)) = .instr .owGetdata ∧
    decode (.host (hostWord false 0x83#8 d)) = .instr .owGetstat ∧
    decode (.host (hostWord false 0x84#8 d)) = .instr .tpGetstat ∧
    decode (.host (hostWord false 0x87#8 d)) = .instr .tpGetincur ∧
    decode (.host (hostWord false 0x88#8 d)) = .instr .tpGetoutcur) ∧
  ∀ s : State,
    (∀ k : BitVec 7, exec (.tpRdbuf k) s = .next { s with out := { s.out with hRdata := s.inByte k.toNat } }) ∧
    exec .owGetmask s = .next { s with out := { s.out with hRdata := s.owMask } } ∧
    exec .owGetdata s = .next { s with out := { s.out with hRdata := s.owData } } ∧
    exec .owGetstat s = .next { s with out := { s.out with
      hRdata := s.owBitn ++ (BitVec.ofBool s.owRdbit ++ (BitVec.ofBool s.owPresent ++
        (BitVec.ofBool (decide (s.owPhase = .drive ∨ s.owPhase = .release)) ++
          BitVec.ofBool (decide (s.owPhase ≠ .idle))))) } } ∧
    exec .tpGetstat s = .next { s with out := { s.out with
      hRdata := 0b00000#5 ++ (BitVec.ofBool s.txEn ++ (BitVec.ofBool s.rxEn ++ BitVec.ofBool s.inReady)) } } ∧
    exec .tpGetincur s = .next { s with out := { s.out with hRdata := s.inCur.setWidth 8 } } ∧
    exec .tpGetoutcur s = .next { s with out := { s.out with hRdata := s.outCur.setWidth 8 } } ∧
    exec .owGetcmd s = .next { s with out := { s.out with hRdata := s.owOp.code.setWidth 8 } }

/-- 44_host_access.md R199: the reserved words are the rule's complete list and no others; a reserved write is
ignored, a reserved read returns 0x00, and neither changes state. -/
def Obligations.ReservedOperations : Prop :=
  (∀ addr data : Byte,
    (decode (.host (hostWord true addr data)) = .instr (.rsvdW addr data) ↔ reservedWrite addr data = true) ∧
    (decode (.host (hostWord false addr data)) = .instr (.rsvdR addr) ↔ reservedRead addr = true)) ∧
  ∀ (s : State) (addr data : Byte), exec (.rsvdW addr data) s = .next s ∧
    exec (.rsvdR addr) s = .next { s with out := { s.out with hRdata := 0x00#8 } }

/-- 20_memory.md R61, column MemRead, and R66, at the host port: a read of any address returns the value its row
names, taken from the state at the start of the tick, and does nothing but answer. -/
def Obligations.HostReadReturnsItsRegister : Prop :=
  ∀ (s : State) (i : Input), s.inputAt 0 = i → i.rst = false → i.hReq = true → i.hWe = false → ∃ v,
    step s = .next (((s.begin i).answer v).owTick s.owPhase i.owIn) ∧
    (i.hAddr < 0x80#8 → v = s.inByte i.hAddr.toNat) ∧
    (i.hAddr = 0x80#8 → v = s.owOp.code.setWidth 8) ∧ (i.hAddr = 0x81#8 → v = s.owMask) ∧
    (i.hAddr = 0x82#8 → v = s.owData) ∧ (i.hAddr = 0x83#8 → v = s.owStat) ∧ (i.hAddr = 0x84#8 → v = s.tpStat) ∧
    (i.hAddr = 0x85#8 → v = 0x00#8) ∧ (i.hAddr = 0x86#8 → v = 0x00#8) ∧
    (i.hAddr = 0x87#8 → v = s.inCur.setWidth 8) ∧ (i.hAddr = 0x88#8 → v = s.outCur.setWidth 8) ∧
    (0x89#8 ≤ i.hAddr → v = 0x00#8)

/-- 20_memory.md R61, column MemWrite, at the host port: what a write to each address does, the rest of the tick being
one sequencer tick; the writes to OW_CMD and TP_CTRL have statements of their own. -/
def Obligations.HostWriteActsOnItsRegister : Prop :=
  ∀ (s : State) (i : Input), s.inputAt 0 = i → i.rst = false → i.hReq = true → i.hWe = true →
    (i.hAddr < 0x80#8 ∨ i.hAddr = 0x83#8 ∨ i.hAddr = 0x84#8 ∨ i.hAddr = 0x87#8 ∨ i.hAddr = 0x88#8 ∨
        0x89#8 ≤ i.hAddr →
      step s = .next ((s.begin i).owTick s.owPhase i.owIn)) ∧
    (i.hAddr = 0x81#8 → s.owPhase = .idle → step s = .next { s.begin i with owMask := i.hWdata }) ∧
    (i.hAddr = 0x82#8 → s.owPhase = .idle → step s = .next { s.begin i with owData := i.hWdata }) ∧
    (i.hAddr = 0x81#8 ∨ i.hAddr = 0x82#8 → s.owPhase ≠ .idle →
      step s = .next ((s.begin i).owTick s.owPhase i.owIn)) ∧
    (i.hAddr = 0x86#8 → s.txEn = true → step s = .next ((s.begin i).owTick s.owPhase i.owIn)) ∧
    (i.hAddr = 0x86#8 → s.txEn = false → ∃ t, exec (.tpPush i.hWdata) (s.begin i) = .next t ∧
      step s = .next (t.owTick s.owPhase i.owIn))

/-- 10_state.md R40 and R41: the fields of the two status bytes at 0x83 and 0x84 as OW.GETSTAT and TP.GETSTAT return
them, their reset values, and that a write to either is a reserved write, which is ignored. -/
def Obligations.StatusBytesHoldTheirFields : Prop :=
  (∀ d : Byte, decode (.host (hostWord false 0x83#8 d)) = .instr .owGetstat ∧
    decode (.host (hostWord false 0x84#8 d)) = .instr .tpGetstat ∧
    decode (.host (hostWord true 0x83#8 d)) = .instr (.rsvdW 0x83#8 d) ∧
    decode (.host (hostWord true 0x84#8 d)) = .instr (.rsvdW 0x84#8 d)) ∧
  (∀ (s : State) (addr d : Byte), exec (.rsvdW addr d) s = .next s) ∧
  (∀ s : State, ∃ t, exec .owGetstat s = .next t ∧
    t.out.hRdata.getLsbD 0 = decide (s.owPhase ≠ .idle) ∧
    t.out.hRdata.getLsbD 1 = decide (s.owPhase = .drive ∨ s.owPhase = .release) ∧
    t.out.hRdata.getLsbD 2 = s.owPresent ∧ t.out.hRdata.getLsbD 3 = s.owRdbit ∧
    t.out.hRdata.extractLsb' 4 4 = s.owBitn) ∧
  (∀ s : State, ∃ t, exec .tpGetstat s = .next t ∧
    t.out.hRdata.getLsbD 0 = s.inReady ∧ t.out.hRdata.getLsbD 1 = s.rxEn ∧ t.out.hRdata.getLsbD 2 = s.txEn ∧
    t.out.hRdata.extractLsb' 3 5 = 0#5) ∧
  State.reset.owStat = 0x00#8 ∧ State.reset.tpStat = 0x00#8
end

