-- ==== Sys2Proof/Laws/State.lean ====
section
/-! SUPPORT. What each named update of the state writes and leaves: one lemma per field per update, all by rfl, and the
buffer reads after each. -/

namespace Sys2Proof.Machine

/-! ## storeIn -/

@[simp] theorem State.storeIn_inBuf (s : State) (i : Nat) (v : Byte) : (s.storeIn i v).inBuf = s.inBuf.put i v := rfl
@[simp] theorem State.storeIn_inCur (s : State) (i : Nat) (v : Byte) : (s.storeIn i v).inCur = s.inCur := rfl
@[simp] theorem State.storeIn_inReady (s : State) (i : Nat) (v : Byte) : (s.storeIn i v).inReady = s.inReady := rfl
@[simp] theorem State.storeIn_rxEn (s : State) (i : Nat) (v : Byte) : (s.storeIn i v).rxEn = s.rxEn := rfl
@[simp] theorem State.storeIn_outBuf (s : State) (i : Nat) (v : Byte) : (s.storeIn i v).outBuf = s.outBuf := rfl
@[simp] theorem State.storeIn_outCur (s : State) (i : Nat) (v : Byte) : (s.storeIn i v).outCur = s.outCur := rfl
@[simp] theorem State.storeIn_txEn (s : State) (i : Nat) (v : Byte) : (s.storeIn i v).txEn = s.txEn := rfl
@[simp] theorem State.storeIn_owMask (s : State) (i : Nat) (v : Byte) : (s.storeIn i v).owMask = s.owMask := rfl
@[simp] theorem State.storeIn_owData (s : State) (i : Nat) (v : Byte) : (s.storeIn i v).owData = s.owData := rfl
@[simp] theorem State.storeIn_owPhase (s : State) (i : Nat) (v : Byte) : (s.storeIn i v).owPhase = s.owPhase := rfl
@[simp] theorem State.storeIn_owOp (s : State) (i : Nat) (v : Byte) : (s.storeIn i v).owOp = s.owOp := rfl
@[simp] theorem State.storeIn_owPrim (s : State) (i : Nat) (v : Byte) : (s.storeIn i v).owPrim = s.owPrim := rfl
@[simp] theorem State.storeIn_owCnt (s : State) (i : Nat) (v : Byte) : (s.storeIn i v).owCnt = s.owCnt := rfl
@[simp] theorem State.storeIn_owBitn (s : State) (i : Nat) (v : Byte) : (s.storeIn i v).owBitn = s.owBitn := rfl
@[simp] theorem State.storeIn_owLmask (s : State) (i : Nat) (v : Byte) : (s.storeIn i v).owLmask = s.owLmask := rfl
@[simp] theorem State.storeIn_owPresent (s : State) (i : Nat) (v : Byte) : (s.storeIn i v).owPresent = s.owPresent := rfl
@[simp] theorem State.storeIn_owRdbit (s : State) (i : Nat) (v : Byte) : (s.storeIn i v).owRdbit = s.owRdbit := rfl
@[simp] theorem State.storeIn_params (s : State) (i : Nat) (v : Byte) : (s.storeIn i v).params = s.params := rfl
@[simp] theorem State.storeIn_out (s : State) (i : Nat) (v : Byte) : (s.storeIn i v).out = s.out := rfl
@[simp] theorem State.storeIn_inputs (s : State) (i : Nat) (v : Byte) : (s.storeIn i v).inputs = s.inputs := rfl
@[simp] theorem State.storeIn_tick (s : State) (i : Nat) (v : Byte) : (s.storeIn i v).tick = s.tick := rfl
@[simp] theorem State.storeIn_epoch (s : State) (i : Nat) (v : Byte) : (s.storeIn i v).epoch = s.epoch := rfl

/-! ## storeOut -/

@[simp] theorem State.storeOut_inBuf (s : State) (i : Nat) (v : Byte) : (s.storeOut i v).inBuf = s.inBuf := rfl
@[simp] theorem State.storeOut_inCur (s : State) (i : Nat) (v : Byte) : (s.storeOut i v).inCur = s.inCur := rfl
@[simp] theorem State.storeOut_inReady (s : State) (i : Nat) (v : Byte) : (s.storeOut i v).inReady = s.inReady := rfl
@[simp] theorem State.storeOut_rxEn (s : State) (i : Nat) (v : Byte) : (s.storeOut i v).rxEn = s.rxEn := rfl
@[simp] theorem State.storeOut_outBuf (s : State) (i : Nat) (v : Byte) : (s.storeOut i v).outBuf = s.outBuf.put i v := rfl
@[simp] theorem State.storeOut_outCur (s : State) (i : Nat) (v : Byte) : (s.storeOut i v).outCur = s.outCur := rfl
@[simp] theorem State.storeOut_txEn (s : State) (i : Nat) (v : Byte) : (s.storeOut i v).txEn = s.txEn := rfl
@[simp] theorem State.storeOut_owMask (s : State) (i : Nat) (v : Byte) : (s.storeOut i v).owMask = s.owMask := rfl
@[simp] theorem State.storeOut_owData (s : State) (i : Nat) (v : Byte) : (s.storeOut i v).owData = s.owData := rfl
@[simp] theorem State.storeOut_owPhase (s : State) (i : Nat) (v : Byte) : (s.storeOut i v).owPhase = s.owPhase := rfl
@[simp] theorem State.storeOut_owOp (s : State) (i : Nat) (v : Byte) : (s.storeOut i v).owOp = s.owOp := rfl
@[simp] theorem State.storeOut_owPrim (s : State) (i : Nat) (v : Byte) : (s.storeOut i v).owPrim = s.owPrim := rfl
@[simp] theorem State.storeOut_owCnt (s : State) (i : Nat) (v : Byte) : (s.storeOut i v).owCnt = s.owCnt := rfl
@[simp] theorem State.storeOut_owBitn (s : State) (i : Nat) (v : Byte) : (s.storeOut i v).owBitn = s.owBitn := rfl
@[simp] theorem State.storeOut_owLmask (s : State) (i : Nat) (v : Byte) : (s.storeOut i v).owLmask = s.owLmask := rfl
@[simp] theorem State.storeOut_owPresent (s : State) (i : Nat) (v : Byte) : (s.storeOut i v).owPresent = s.owPresent := rfl
@[simp] theorem State.storeOut_owRdbit (s : State) (i : Nat) (v : Byte) : (s.storeOut i v).owRdbit = s.owRdbit := rfl
@[simp] theorem State.storeOut_params (s : State) (i : Nat) (v : Byte) : (s.storeOut i v).params = s.params := rfl
@[simp] theorem State.storeOut_out (s : State) (i : Nat) (v : Byte) : (s.storeOut i v).out = s.out := rfl
@[simp] theorem State.storeOut_inputs (s : State) (i : Nat) (v : Byte) : (s.storeOut i v).inputs = s.inputs := rfl
@[simp] theorem State.storeOut_tick (s : State) (i : Nat) (v : Byte) : (s.storeOut i v).tick = s.tick := rfl
@[simp] theorem State.storeOut_epoch (s : State) (i : Nat) (v : Byte) : (s.storeOut i v).epoch = s.epoch := rfl

/-! ## answer -/

@[simp] theorem State.answer_inBuf (s : State) (v : Byte) : (s.answer v).inBuf = s.inBuf := rfl
@[simp] theorem State.answer_inCur (s : State) (v : Byte) : (s.answer v).inCur = s.inCur := rfl
@[simp] theorem State.answer_inReady (s : State) (v : Byte) : (s.answer v).inReady = s.inReady := rfl
@[simp] theorem State.answer_rxEn (s : State) (v : Byte) : (s.answer v).rxEn = s.rxEn := rfl
@[simp] theorem State.answer_outBuf (s : State) (v : Byte) : (s.answer v).outBuf = s.outBuf := rfl
@[simp] theorem State.answer_outCur (s : State) (v : Byte) : (s.answer v).outCur = s.outCur := rfl
@[simp] theorem State.answer_txEn (s : State) (v : Byte) : (s.answer v).txEn = s.txEn := rfl
@[simp] theorem State.answer_owMask (s : State) (v : Byte) : (s.answer v).owMask = s.owMask := rfl
@[simp] theorem State.answer_owData (s : State) (v : Byte) : (s.answer v).owData = s.owData := rfl
@[simp] theorem State.answer_owPhase (s : State) (v : Byte) : (s.answer v).owPhase = s.owPhase := rfl
@[simp] theorem State.answer_owOp (s : State) (v : Byte) : (s.answer v).owOp = s.owOp := rfl
@[simp] theorem State.answer_owPrim (s : State) (v : Byte) : (s.answer v).owPrim = s.owPrim := rfl
@[simp] theorem State.answer_owCnt (s : State) (v : Byte) : (s.answer v).owCnt = s.owCnt := rfl
@[simp] theorem State.answer_owBitn (s : State) (v : Byte) : (s.answer v).owBitn = s.owBitn := rfl
@[simp] theorem State.answer_owLmask (s : State) (v : Byte) : (s.answer v).owLmask = s.owLmask := rfl
@[simp] theorem State.answer_owPresent (s : State) (v : Byte) : (s.answer v).owPresent = s.owPresent := rfl
@[simp] theorem State.answer_owRdbit (s : State) (v : Byte) : (s.answer v).owRdbit = s.owRdbit := rfl
@[simp] theorem State.answer_params (s : State) (v : Byte) : (s.answer v).params = s.params := rfl
@[simp] theorem State.answer_out (s : State) (v : Byte) : (s.answer v).out = { s.out with hRdata := v } := rfl
@[simp] theorem State.answer_inputs (s : State) (v : Byte) : (s.answer v).inputs = s.inputs := rfl
@[simp] theorem State.answer_tick (s : State) (v : Byte) : (s.answer v).tick = s.tick := rfl
@[simp] theorem State.answer_epoch (s : State) (v : Byte) : (s.answer v).epoch = s.epoch := rfl

/-! ## emit -/

@[simp] theorem State.emit_inBuf (s : State) (v : Byte) : (s.emit v).inBuf = s.inBuf := rfl
@[simp] theorem State.emit_inCur (s : State) (v : Byte) : (s.emit v).inCur = s.inCur := rfl
@[simp] theorem State.emit_inReady (s : State) (v : Byte) : (s.emit v).inReady = s.inReady := rfl
@[simp] theorem State.emit_rxEn (s : State) (v : Byte) : (s.emit v).rxEn = s.rxEn := rfl
@[simp] theorem State.emit_outBuf (s : State) (v : Byte) : (s.emit v).outBuf = s.outBuf := rfl
@[simp] theorem State.emit_outCur (s : State) (v : Byte) : (s.emit v).outCur = s.outCur := rfl
@[simp] theorem State.emit_txEn (s : State) (v : Byte) : (s.emit v).txEn = s.txEn := rfl
@[simp] theorem State.emit_owMask (s : State) (v : Byte) : (s.emit v).owMask = s.owMask := rfl
@[simp] theorem State.emit_owData (s : State) (v : Byte) : (s.emit v).owData = s.owData := rfl
@[simp] theorem State.emit_owPhase (s : State) (v : Byte) : (s.emit v).owPhase = s.owPhase := rfl
@[simp] theorem State.emit_owOp (s : State) (v : Byte) : (s.emit v).owOp = s.owOp := rfl
@[simp] theorem State.emit_owPrim (s : State) (v : Byte) : (s.emit v).owPrim = s.owPrim := rfl
@[simp] theorem State.emit_owCnt (s : State) (v : Byte) : (s.emit v).owCnt = s.owCnt := rfl
@[simp] theorem State.emit_owBitn (s : State) (v : Byte) : (s.emit v).owBitn = s.owBitn := rfl
@[simp] theorem State.emit_owLmask (s : State) (v : Byte) : (s.emit v).owLmask = s.owLmask := rfl
@[simp] theorem State.emit_owPresent (s : State) (v : Byte) : (s.emit v).owPresent = s.owPresent := rfl
@[simp] theorem State.emit_owRdbit (s : State) (v : Byte) : (s.emit v).owRdbit = s.owRdbit := rfl
@[simp] theorem State.emit_params (s : State) (v : Byte) : (s.emit v).params = s.params := rfl
@[simp] theorem State.emit_out (s : State) (v : Byte) : (s.emit v).out = { s.out with txWr := true, txData := v } := rfl
@[simp] theorem State.emit_inputs (s : State) (v : Byte) : (s.emit v).inputs = s.inputs := rfl
@[simp] theorem State.emit_tick (s : State) (v : Byte) : (s.emit v).tick = s.tick := rfl
@[simp] theorem State.emit_epoch (s : State) (v : Byte) : (s.emit v).epoch = s.epoch := rfl

/-! ## setInCur -/

@[simp] theorem State.setInCur_inBuf (s : State) (c : Cursor) : (s.setInCur c).inBuf = s.inBuf := rfl
@[simp] theorem State.setInCur_inCur (s : State) (c : Cursor) : (s.setInCur c).inCur = c := rfl
@[simp] theorem State.setInCur_inReady (s : State) (c : Cursor) : (s.setInCur c).inReady = s.inReady := rfl
@[simp] theorem State.setInCur_rxEn (s : State) (c : Cursor) : (s.setInCur c).rxEn = s.rxEn := rfl
@[simp] theorem State.setInCur_outBuf (s : State) (c : Cursor) : (s.setInCur c).outBuf = s.outBuf := rfl
@[simp] theorem State.setInCur_outCur (s : State) (c : Cursor) : (s.setInCur c).outCur = s.outCur := rfl
@[simp] theorem State.setInCur_txEn (s : State) (c : Cursor) : (s.setInCur c).txEn = s.txEn := rfl
@[simp] theorem State.setInCur_owMask (s : State) (c : Cursor) : (s.setInCur c).owMask = s.owMask := rfl
@[simp] theorem State.setInCur_owData (s : State) (c : Cursor) : (s.setInCur c).owData = s.owData := rfl
@[simp] theorem State.setInCur_owPhase (s : State) (c : Cursor) : (s.setInCur c).owPhase = s.owPhase := rfl
@[simp] theorem State.setInCur_owOp (s : State) (c : Cursor) : (s.setInCur c).owOp = s.owOp := rfl
@[simp] theorem State.setInCur_owPrim (s : State) (c : Cursor) : (s.setInCur c).owPrim = s.owPrim := rfl
@[simp] theorem State.setInCur_owCnt (s : State) (c : Cursor) : (s.setInCur c).owCnt = s.owCnt := rfl
@[simp] theorem State.setInCur_owBitn (s : State) (c : Cursor) : (s.setInCur c).owBitn = s.owBitn := rfl
@[simp] theorem State.setInCur_owLmask (s : State) (c : Cursor) : (s.setInCur c).owLmask = s.owLmask := rfl
@[simp] theorem State.setInCur_owPresent (s : State) (c : Cursor) : (s.setInCur c).owPresent = s.owPresent := rfl
@[simp] theorem State.setInCur_owRdbit (s : State) (c : Cursor) : (s.setInCur c).owRdbit = s.owRdbit := rfl
@[simp] theorem State.setInCur_params (s : State) (c : Cursor) : (s.setInCur c).params = s.params := rfl
@[simp] theorem State.setInCur_out (s : State) (c : Cursor) : (s.setInCur c).out = s.out := rfl
@[simp] theorem State.setInCur_inputs (s : State) (c : Cursor) : (s.setInCur c).inputs = s.inputs := rfl
@[simp] theorem State.setInCur_tick (s : State) (c : Cursor) : (s.setInCur c).tick = s.tick := rfl
@[simp] theorem State.setInCur_epoch (s : State) (c : Cursor) : (s.setInCur c).epoch = s.epoch := rfl

/-! ## setOutCur -/

@[simp] theorem State.setOutCur_inBuf (s : State) (c : Cursor) : (s.setOutCur c).inBuf = s.inBuf := rfl
@[simp] theorem State.setOutCur_inCur (s : State) (c : Cursor) : (s.setOutCur c).inCur = s.inCur := rfl
@[simp] theorem State.setOutCur_inReady (s : State) (c : Cursor) : (s.setOutCur c).inReady = s.inReady := rfl
@[simp] theorem State.setOutCur_rxEn (s : State) (c : Cursor) : (s.setOutCur c).rxEn = s.rxEn := rfl
@[simp] theorem State.setOutCur_outBuf (s : State) (c : Cursor) : (s.setOutCur c).outBuf = s.outBuf := rfl
@[simp] theorem State.setOutCur_outCur (s : State) (c : Cursor) : (s.setOutCur c).outCur = c := rfl
@[simp] theorem State.setOutCur_txEn (s : State) (c : Cursor) : (s.setOutCur c).txEn = s.txEn := rfl
@[simp] theorem State.setOutCur_owMask (s : State) (c : Cursor) : (s.setOutCur c).owMask = s.owMask := rfl
@[simp] theorem State.setOutCur_owData (s : State) (c : Cursor) : (s.setOutCur c).owData = s.owData := rfl
@[simp] theorem State.setOutCur_owPhase (s : State) (c : Cursor) : (s.setOutCur c).owPhase = s.owPhase := rfl
@[simp] theorem State.setOutCur_owOp (s : State) (c : Cursor) : (s.setOutCur c).owOp = s.owOp := rfl
@[simp] theorem State.setOutCur_owPrim (s : State) (c : Cursor) : (s.setOutCur c).owPrim = s.owPrim := rfl
@[simp] theorem State.setOutCur_owCnt (s : State) (c : Cursor) : (s.setOutCur c).owCnt = s.owCnt := rfl
@[simp] theorem State.setOutCur_owBitn (s : State) (c : Cursor) : (s.setOutCur c).owBitn = s.owBitn := rfl
@[simp] theorem State.setOutCur_owLmask (s : State) (c : Cursor) : (s.setOutCur c).owLmask = s.owLmask := rfl
@[simp] theorem State.setOutCur_owPresent (s : State) (c : Cursor) : (s.setOutCur c).owPresent = s.owPresent := rfl
@[simp] theorem State.setOutCur_owRdbit (s : State) (c : Cursor) : (s.setOutCur c).owRdbit = s.owRdbit := rfl
@[simp] theorem State.setOutCur_params (s : State) (c : Cursor) : (s.setOutCur c).params = s.params := rfl
@[simp] theorem State.setOutCur_out (s : State) (c : Cursor) : (s.setOutCur c).out = s.out := rfl
@[simp] theorem State.setOutCur_inputs (s : State) (c : Cursor) : (s.setOutCur c).inputs = s.inputs := rfl
@[simp] theorem State.setOutCur_tick (s : State) (c : Cursor) : (s.setOutCur c).tick = s.tick := rfl
@[simp] theorem State.setOutCur_epoch (s : State) (c : Cursor) : (s.setOutCur c).epoch = s.epoch := rfl

/-! ## count -/

@[simp] theorem State.count_inBuf (s : State) : (s.count).inBuf = s.inBuf := rfl
@[simp] theorem State.count_inCur (s : State) : (s.count).inCur = s.inCur := rfl
@[simp] theorem State.count_inReady (s : State) : (s.count).inReady = s.inReady := rfl
@[simp] theorem State.count_rxEn (s : State) : (s.count).rxEn = s.rxEn := rfl
@[simp] theorem State.count_outBuf (s : State) : (s.count).outBuf = s.outBuf := rfl
@[simp] theorem State.count_outCur (s : State) : (s.count).outCur = s.outCur := rfl
@[simp] theorem State.count_txEn (s : State) : (s.count).txEn = s.txEn := rfl
@[simp] theorem State.count_owMask (s : State) : (s.count).owMask = s.owMask := rfl
@[simp] theorem State.count_owData (s : State) : (s.count).owData = s.owData := rfl
@[simp] theorem State.count_owPhase (s : State) : (s.count).owPhase = s.owPhase := rfl
@[simp] theorem State.count_owOp (s : State) : (s.count).owOp = s.owOp := rfl
@[simp] theorem State.count_owPrim (s : State) : (s.count).owPrim = s.owPrim := rfl
@[simp] theorem State.count_owCnt (s : State) : (s.count).owCnt = s.owCnt + 1 := rfl
@[simp] theorem State.count_owBitn (s : State) : (s.count).owBitn = s.owBitn := rfl
@[simp] theorem State.count_owLmask (s : State) : (s.count).owLmask = s.owLmask := rfl
@[simp] theorem State.count_owPresent (s : State) : (s.count).owPresent = s.owPresent := rfl
@[simp] theorem State.count_owRdbit (s : State) : (s.count).owRdbit = s.owRdbit := rfl
@[simp] theorem State.count_params (s : State) : (s.count).params = s.params := rfl
@[simp] theorem State.count_out (s : State) : (s.count).out = s.out := rfl
@[simp] theorem State.count_inputs (s : State) : (s.count).inputs = s.inputs := rfl
@[simp] theorem State.count_tick (s : State) : (s.count).tick = s.tick := rfl
@[simp] theorem State.count_epoch (s : State) : (s.count).epoch = s.epoch := rfl

/-! ## endInputLine -/

@[simp] theorem State.endInputLine_inBuf (s : State) (c : Cursor) : (s.endInputLine c).inBuf = s.inBuf.put c.toNat s.params.endMark := rfl
@[simp] theorem State.endInputLine_inCur (s : State) (c : Cursor) : (s.endInputLine c).inCur = 0#7 := rfl
@[simp] theorem State.endInputLine_inReady (s : State) (c : Cursor) : (s.endInputLine c).inReady = true := rfl
@[simp] theorem State.endInputLine_rxEn (s : State) (c : Cursor) : (s.endInputLine c).rxEn = false := rfl
@[simp] theorem State.endInputLine_outBuf (s : State) (c : Cursor) : (s.endInputLine c).outBuf = s.outBuf := rfl
@[simp] theorem State.endInputLine_outCur (s : State) (c : Cursor) : (s.endInputLine c).outCur = s.outCur := rfl
@[simp] theorem State.endInputLine_txEn (s : State) (c : Cursor) : (s.endInputLine c).txEn = s.txEn := rfl
@[simp] theorem State.endInputLine_owMask (s : State) (c : Cursor) : (s.endInputLine c).owMask = s.owMask := rfl
@[simp] theorem State.endInputLine_owData (s : State) (c : Cursor) : (s.endInputLine c).owData = s.owData := rfl
@[simp] theorem State.endInputLine_owPhase (s : State) (c : Cursor) : (s.endInputLine c).owPhase = s.owPhase := rfl
@[simp] theorem State.endInputLine_owOp (s : State) (c : Cursor) : (s.endInputLine c).owOp = s.owOp := rfl
@[simp] theorem State.endInputLine_owPrim (s : State) (c : Cursor) : (s.endInputLine c).owPrim = s.owPrim := rfl
@[simp] theorem State.endInputLine_owCnt (s : State) (c : Cursor) : (s.endInputLine c).owCnt = s.owCnt := rfl
@[simp] theorem State.endInputLine_owBitn (s : State) (c : Cursor) : (s.endInputLine c).owBitn = s.owBitn := rfl
@[simp] theorem State.endInputLine_owLmask (s : State) (c : Cursor) : (s.endInputLine c).owLmask = s.owLmask := rfl
@[simp] theorem State.endInputLine_owPresent (s : State) (c : Cursor) : (s.endInputLine c).owPresent = s.owPresent := rfl
@[simp] theorem State.endInputLine_owRdbit (s : State) (c : Cursor) : (s.endInputLine c).owRdbit = s.owRdbit := rfl
@[simp] theorem State.endInputLine_params (s : State) (c : Cursor) : (s.endInputLine c).params = s.params := rfl
@[simp] theorem State.endInputLine_out (s : State) (c : Cursor) : (s.endInputLine c).out = s.out := rfl
@[simp] theorem State.endInputLine_inputs (s : State) (c : Cursor) : (s.endInputLine c).inputs = s.inputs := rfl
@[simp] theorem State.endInputLine_tick (s : State) (c : Cursor) : (s.endInputLine c).tick = s.tick := rfl
@[simp] theorem State.endInputLine_epoch (s : State) (c : Cursor) : (s.endInputLine c).epoch = s.epoch := rfl

/-! ## startTx -/

@[simp] theorem State.startTx_inBuf (s : State) : (s.startTx).inBuf = s.inBuf := rfl
@[simp] theorem State.startTx_inCur (s : State) : (s.startTx).inCur = s.inCur := rfl
@[simp] theorem State.startTx_inReady (s : State) : (s.startTx).inReady = s.inReady := rfl
@[simp] theorem State.startTx_rxEn (s : State) : (s.startTx).rxEn = s.rxEn := rfl
@[simp] theorem State.startTx_outBuf (s : State) : (s.startTx).outBuf = s.outBuf := rfl
@[simp] theorem State.startTx_outCur (s : State) : (s.startTx).outCur = 0#7 := rfl
@[simp] theorem State.startTx_txEn (s : State) : (s.startTx).txEn = true := rfl
@[simp] theorem State.startTx_owMask (s : State) : (s.startTx).owMask = s.owMask := rfl
@[simp] theorem State.startTx_owData (s : State) : (s.startTx).owData = s.owData := rfl
@[simp] theorem State.startTx_owPhase (s : State) : (s.startTx).owPhase = s.owPhase := rfl
@[simp] theorem State.startTx_owOp (s : State) : (s.startTx).owOp = s.owOp := rfl
@[simp] theorem State.startTx_owPrim (s : State) : (s.startTx).owPrim = s.owPrim := rfl
@[simp] theorem State.startTx_owCnt (s : State) : (s.startTx).owCnt = s.owCnt := rfl
@[simp] theorem State.startTx_owBitn (s : State) : (s.startTx).owBitn = s.owBitn := rfl
@[simp] theorem State.startTx_owLmask (s : State) : (s.startTx).owLmask = s.owLmask := rfl
@[simp] theorem State.startTx_owPresent (s : State) : (s.startTx).owPresent = s.owPresent := rfl
@[simp] theorem State.startTx_owRdbit (s : State) : (s.startTx).owRdbit = s.owRdbit := rfl
@[simp] theorem State.startTx_params (s : State) : (s.startTx).params = s.params := rfl
@[simp] theorem State.startTx_out (s : State) : (s.startTx).out = { s.out with txWr := true, txData := s.outByte 0 } := rfl
@[simp] theorem State.startTx_inputs (s : State) : (s.startTx).inputs = s.inputs := rfl
@[simp] theorem State.startTx_tick (s : State) : (s.startTx).tick = s.tick := rfl
@[simp] theorem State.startTx_epoch (s : State) : (s.startTx).epoch = s.epoch := rfl

/-! ## accept -/

@[simp] theorem State.accept_inBuf (s : State) (op : OwOp) : (s.accept op).inBuf = s.inBuf := rfl
@[simp] theorem State.accept_inCur (s : State) (op : OwOp) : (s.accept op).inCur = s.inCur := rfl
@[simp] theorem State.accept_inReady (s : State) (op : OwOp) : (s.accept op).inReady = s.inReady := rfl
@[simp] theorem State.accept_rxEn (s : State) (op : OwOp) : (s.accept op).rxEn = s.rxEn := rfl
@[simp] theorem State.accept_outBuf (s : State) (op : OwOp) : (s.accept op).outBuf = s.outBuf := rfl
@[simp] theorem State.accept_outCur (s : State) (op : OwOp) : (s.accept op).outCur = s.outCur := rfl
@[simp] theorem State.accept_txEn (s : State) (op : OwOp) : (s.accept op).txEn = s.txEn := rfl
@[simp] theorem State.accept_owMask (s : State) (op : OwOp) : (s.accept op).owMask = s.owMask := rfl
@[simp] theorem State.accept_owData (s : State) (op : OwOp) : (s.accept op).owData = s.owData := rfl
@[simp] theorem State.accept_owPhase (s : State) (op : OwOp) : (s.accept op).owPhase = .drive := rfl
@[simp] theorem State.accept_owOp (s : State) (op : OwOp) : (s.accept op).owOp = op := rfl
@[simp] theorem State.accept_owPrim (s : State) (op : OwOp) : (s.accept op).owPrim = firstPrim s.owData op := rfl
@[simp] theorem State.accept_owCnt (s : State) (op : OwOp) : (s.accept op).owCnt = 0 := rfl
@[simp] theorem State.accept_owBitn (s : State) (op : OwOp) : (s.accept op).owBitn = 0#4 := rfl
@[simp] theorem State.accept_owLmask (s : State) (op : OwOp) : (s.accept op).owLmask = s.owMask := rfl
@[simp] theorem State.accept_owPresent (s : State) (op : OwOp) : (s.accept op).owPresent = s.owPresent := rfl
@[simp] theorem State.accept_owRdbit (s : State) (op : OwOp) : (s.accept op).owRdbit = s.owRdbit := rfl
@[simp] theorem State.accept_params (s : State) (op : OwOp) : (s.accept op).params = s.params := rfl
@[simp] theorem State.accept_out (s : State) (op : OwOp) : (s.accept op).out = s.out := rfl
@[simp] theorem State.accept_inputs (s : State) (op : OwOp) : (s.accept op).inputs = s.inputs := rfl
@[simp] theorem State.accept_tick (s : State) (op : OwOp) : (s.accept op).tick = s.tick := rfl
@[simp] theorem State.accept_epoch (s : State) (op : OwOp) : (s.accept op).epoch = s.epoch := rfl

/-! ## begin -/

@[simp] theorem State.begin_inBuf (s : State) (i : Input) : (s.begin i).inBuf = s.inBuf := rfl
@[simp] theorem State.begin_inCur (s : State) (i : Input) : (s.begin i).inCur = s.inCur := rfl
@[simp] theorem State.begin_inReady (s : State) (i : Input) : (s.begin i).inReady = s.inReady := rfl
@[simp] theorem State.begin_rxEn (s : State) (i : Input) : (s.begin i).rxEn = s.rxEn := rfl
@[simp] theorem State.begin_outBuf (s : State) (i : Input) : (s.begin i).outBuf = s.outBuf := rfl
@[simp] theorem State.begin_outCur (s : State) (i : Input) : (s.begin i).outCur = s.outCur := rfl
@[simp] theorem State.begin_txEn (s : State) (i : Input) : (s.begin i).txEn = s.txEn := rfl
@[simp] theorem State.begin_owMask (s : State) (i : Input) : (s.begin i).owMask = s.owMask := rfl
@[simp] theorem State.begin_owData (s : State) (i : Input) : (s.begin i).owData = s.owData := rfl
@[simp] theorem State.begin_owPhase (s : State) (i : Input) : (s.begin i).owPhase = s.owPhase := rfl
@[simp] theorem State.begin_owOp (s : State) (i : Input) : (s.begin i).owOp = s.owOp := rfl
@[simp] theorem State.begin_owPrim (s : State) (i : Input) : (s.begin i).owPrim = s.owPrim := rfl
@[simp] theorem State.begin_owCnt (s : State) (i : Input) : (s.begin i).owCnt = s.owCnt := rfl
@[simp] theorem State.begin_owBitn (s : State) (i : Input) : (s.begin i).owBitn = s.owBitn := rfl
@[simp] theorem State.begin_owLmask (s : State) (i : Input) : (s.begin i).owLmask = s.owLmask := rfl
@[simp] theorem State.begin_owPresent (s : State) (i : Input) : (s.begin i).owPresent = s.owPresent := rfl
@[simp] theorem State.begin_owRdbit (s : State) (i : Input) : (s.begin i).owRdbit = s.owRdbit := rfl
@[simp] theorem State.begin_params (s : State) (i : Input) : (s.begin i).params = s.params := rfl
@[simp] theorem State.begin_out (s : State) (i : Input) : (s.begin i).out = s.portsFor i := rfl
@[simp] theorem State.begin_inputs (s : State) (i : Input) : (s.begin i).inputs = s.inputs.tail := rfl
@[simp] theorem State.begin_tick (s : State) (i : Input) : (s.begin i).tick = s.tick + 1 := rfl
@[simp] theorem State.begin_epoch (s : State) (i : Input) : (s.begin i).epoch = s.epoch := rfl

/-! ## quiet -/

@[simp] theorem State.quiet_inBuf (s : State) : (s.quiet).inBuf = s.inBuf := rfl
@[simp] theorem State.quiet_inCur (s : State) : (s.quiet).inCur = s.inCur := rfl
@[simp] theorem State.quiet_inReady (s : State) : (s.quiet).inReady = s.inReady := rfl
@[simp] theorem State.quiet_rxEn (s : State) : (s.quiet).rxEn = s.rxEn := rfl
@[simp] theorem State.quiet_outBuf (s : State) : (s.quiet).outBuf = s.outBuf := rfl
@[simp] theorem State.quiet_outCur (s : State) : (s.quiet).outCur = s.outCur := rfl
@[simp] theorem State.quiet_txEn (s : State) : (s.quiet).txEn = s.txEn := rfl
@[simp] theorem State.quiet_owMask (s : State) : (s.quiet).owMask = s.owMask := rfl
@[simp] theorem State.quiet_owData (s : State) : (s.quiet).owData = s.owData := rfl
@[simp] theorem State.quiet_owPhase (s : State) : (s.quiet).owPhase = s.owPhase := rfl
@[simp] theorem State.quiet_owOp (s : State) : (s.quiet).owOp = s.owOp := rfl
@[simp] theorem State.quiet_owPrim (s : State) : (s.quiet).owPrim = s.owPrim := rfl
@[simp] theorem State.quiet_owCnt (s : State) : (s.quiet).owCnt = s.owCnt := rfl
@[simp] theorem State.quiet_owBitn (s : State) : (s.quiet).owBitn = s.owBitn := rfl
@[simp] theorem State.quiet_owLmask (s : State) : (s.quiet).owLmask = s.owLmask := rfl
@[simp] theorem State.quiet_owPresent (s : State) : (s.quiet).owPresent = s.owPresent := rfl
@[simp] theorem State.quiet_owRdbit (s : State) : (s.quiet).owRdbit = s.owRdbit := rfl
@[simp] theorem State.quiet_params (s : State) : (s.quiet).params = s.params := rfl
@[simp] theorem State.quiet_out (s : State) : (s.quiet).out = { s.out with txWr := false } := rfl
@[simp] theorem State.quiet_inputs (s : State) : (s.quiet).inputs = s.inputs := rfl
@[simp] theorem State.quiet_tick (s : State) : (s.quiet).tick = s.tick := rfl
@[simp] theorem State.quiet_epoch (s : State) : (s.quiet).epoch = s.epoch := rfl

/-! ## resetTick -/

@[simp] theorem State.resetTick_inBuf (s : State) : s.resetTick.inBuf = [] := rfl
@[simp] theorem State.resetTick_inCur (s : State) : s.resetTick.inCur = 0#7 := rfl
@[simp] theorem State.resetTick_inReady (s : State) : s.resetTick.inReady = false := rfl
@[simp] theorem State.resetTick_rxEn (s : State) : s.resetTick.rxEn = false := rfl
@[simp] theorem State.resetTick_outBuf (s : State) : s.resetTick.outBuf = [] := rfl
@[simp] theorem State.resetTick_outCur (s : State) : s.resetTick.outCur = 0#7 := rfl
@[simp] theorem State.resetTick_txEn (s : State) : s.resetTick.txEn = false := rfl
@[simp] theorem State.resetTick_owMask (s : State) : s.resetTick.owMask = 0x00#8 := rfl
@[simp] theorem State.resetTick_owData (s : State) : s.resetTick.owData = 0x00#8 := rfl
@[simp] theorem State.resetTick_owPhase (s : State) : s.resetTick.owPhase = .idle := rfl
@[simp] theorem State.resetTick_owOp (s : State) : s.resetTick.owOp = .noCommand := rfl
@[simp] theorem State.resetTick_owPrim (s : State) : s.resetTick.owPrim = .reset := rfl
@[simp] theorem State.resetTick_owCnt (s : State) : s.resetTick.owCnt = 0 := rfl
@[simp] theorem State.resetTick_owBitn (s : State) : s.resetTick.owBitn = 0#4 := rfl
@[simp] theorem State.resetTick_owLmask (s : State) : s.resetTick.owLmask = 0x00#8 := rfl
@[simp] theorem State.resetTick_owPresent (s : State) : s.resetTick.owPresent = false := rfl
@[simp] theorem State.resetTick_owRdbit (s : State) : s.resetTick.owRdbit = false := rfl
@[simp] theorem State.resetTick_params (s : State) : s.resetTick.params = s.params := rfl
@[simp] theorem State.resetTick_out (s : State) : s.resetTick.out = s.out := rfl
@[simp] theorem State.resetTick_inputs (s : State) : s.resetTick.inputs = s.inputs := rfl
@[simp] theorem State.resetTick_tick (s : State) : s.resetTick.tick = s.tick := rfl
@[simp] theorem State.resetTick_epoch (s : State) : s.resetTick.epoch = s.epoch + 1 := rfl

/-! ## Buffer reads and inputs after an update that writes no buffer -/

@[simp] theorem State.storeOut_inByte (s : State) (i : Nat) (v : Byte) (k : Nat) : (s.storeOut i v).inByte k = s.inByte k := rfl
@[simp] theorem State.setInCur_inByte (s : State) (c : Cursor) (k : Nat) : (s.setInCur c).inByte k = s.inByte k := rfl
@[simp] theorem State.setOutCur_inByte (s : State) (c : Cursor) (k : Nat) : (s.setOutCur c).inByte k = s.inByte k := rfl
@[simp] theorem State.count_inByte (s : State) (k : Nat) : (s.count).inByte k = s.inByte k := rfl
@[simp] theorem State.answer_inByte (s : State) (v : Byte) (k : Nat) : (s.answer v).inByte k = s.inByte k := rfl
@[simp] theorem State.emit_inByte (s : State) (v : Byte) (k : Nat) : (s.emit v).inByte k = s.inByte k := rfl
@[simp] theorem State.startTx_inByte (s : State) (k : Nat) : (s.startTx).inByte k = s.inByte k := rfl
@[simp] theorem State.accept_inByte (s : State) (op : OwOp) (k : Nat) : (s.accept op).inByte k = s.inByte k := rfl
@[simp] theorem State.begin_inByte (s : State) (i : Input) (k : Nat) : (s.begin i).inByte k = s.inByte k := rfl
@[simp] theorem State.quiet_inByte (s : State) (k : Nat) : (s.quiet).inByte k = s.inByte k := rfl
@[simp] theorem State.storeIn_outByte (s : State) (i : Nat) (v : Byte) (k : Nat) : (s.storeIn i v).outByte k = s.outByte k := rfl
@[simp] theorem State.setInCur_outByte (s : State) (c : Cursor) (k : Nat) : (s.setInCur c).outByte k = s.outByte k := rfl
@[simp] theorem State.setOutCur_outByte (s : State) (c : Cursor) (k : Nat) : (s.setOutCur c).outByte k = s.outByte k := rfl
@[simp] theorem State.count_outByte (s : State) (k : Nat) : (s.count).outByte k = s.outByte k := rfl
@[simp] theorem State.endInputLine_outByte (s : State) (c : Cursor) (k : Nat) : (s.endInputLine c).outByte k = s.outByte k := rfl
@[simp] theorem State.answer_outByte (s : State) (v : Byte) (k : Nat) : (s.answer v).outByte k = s.outByte k := rfl
@[simp] theorem State.emit_outByte (s : State) (v : Byte) (k : Nat) : (s.emit v).outByte k = s.outByte k := rfl
@[simp] theorem State.startTx_outByte (s : State) (k : Nat) : (s.startTx).outByte k = s.outByte k := rfl
@[simp] theorem State.accept_outByte (s : State) (op : OwOp) (k : Nat) : (s.accept op).outByte k = s.outByte k := rfl
@[simp] theorem State.begin_outByte (s : State) (i : Input) (k : Nat) : (s.begin i).outByte k = s.outByte k := rfl
@[simp] theorem State.quiet_outByte (s : State) (k : Nat) : (s.quiet).outByte k = s.outByte k := rfl

end Sys2Proof.Machine
end

