-- ==== Sys2Proof/Laws/Memory.lean ====
section
/-! SUPPORT. A line buffer: read after write, the canonical form, and that every write keeps it. -/

namespace Sys2Proof.Machine

@[simp] theorem Memory.find_nil (a : Nat) : Memory.find [] a = none := rfl

/-- A write is read back at its index and changes no other. -/
theorem Memory.find_put (m : Memory) (a b : Nat) (v : Byte) :
    (m.put a v).find b = if b = a then some v else m.find b := by
  induction m with
  | nil => simp [Memory.put, Memory.find, eq_comm]
  | cons c rest ih =>
    simp only [Memory.put]
    split
    · simp [Memory.find, eq_comm]
    · split
      · simp only [Memory.find]; grind
      · simp only [Memory.find, ih]; grind

/-- An index below the form's lower bound is not listed. -/
theorem Memory.find_of_lt {lo : Nat} {m : Memory} (h : Memory.risesFrom lo m = true) {a : Nat} (ha : a < lo) :
    m.find a = none := by
  induction m generalizing lo with
  | nil => rfl
  | cons c rest ih =>
    simp only [Memory.risesFrom, Bool.and_eq_true, decide_eq_true_eq] at h
    have hne : ¬ c.1 = a := by omega
    simp only [Memory.find, if_neg hne]
    exact ih h.2 (by omega)

/-- A write inside the capacity keeps the canonical form from any bound at or below it. -/
theorem Memory.risesFrom_put {lo : Nat} {m : Memory} (h : Memory.risesFrom lo m = true) {a : Nat} (hlo : lo ≤ a)
    (ha : a < Config.cap) (v : Byte) : Memory.risesFrom lo (m.put a v) = true := by
  induction m generalizing lo with
  | nil => simp [Memory.put, Memory.risesFrom, hlo, ha]
  | cons c rest ih =>
    simp only [Memory.risesFrom, Bool.and_eq_true, decide_eq_true_eq] at h
    simp only [Memory.put]
    split
    · simp only [Memory.risesFrom, Bool.and_eq_true, decide_eq_true_eq]; grind
    · split
      · next heq => subst heq; simp [Memory.risesFrom, hlo, ha, h.2]
      · simp only [Memory.risesFrom, Bool.and_eq_true, decide_eq_true_eq]
        exact ⟨h.1, ih h.2 (by omega)⟩

/-- Every write at an index of the buffer keeps the canonical form. -/
theorem Memory.wf_put {m : Memory} (h : m.wf = true) {a : Nat} (ha : a < Config.cap) (v : Byte) :
    (m.put a v).wf = true :=
  Memory.risesFrom_put h (Nat.zero_le a) ha v

/-- In canonical form, equal contents are equal data. -/
theorem Memory.eq_of_find_eq {lo : Nat} {m n : Memory} (hm : Memory.risesFrom lo m = true)
    (hn : Memory.risesFrom lo n = true) (h : ∀ a, m.find a = n.find a) : m = n := by
  induction m generalizing lo n with
  | nil =>
    cases n with
    | nil => rfl
    | cons d r => have := h d.1; simp [Memory.find] at this
  | cons c rest ih =>
    cases n with
    | nil => have := h c.1; simp [Memory.find] at this
    | cons d r =>
      simp only [Memory.risesFrom, Bool.and_eq_true, decide_eq_true_eq] at hm hn
      have hkey : c.1 = d.1 := by
        by_contra hne
        rcases Nat.lt_or_gt_of_ne hne with hlt | hlt
        · have hc := h c.1
          rw [Memory.find, if_pos rfl, Memory.find, if_neg (by omega), Memory.find_of_lt hn.2 (by omega)] at hc
          cases hc
        · have hd := h d.1
          rw [Memory.find, if_neg (by omega), Memory.find_of_lt hm.2 (by omega), Memory.find, if_pos rfl] at hd
          cases hd
      have hval : c.2 = d.2 := by
        have hc := h c.1
        rw [Memory.find, if_pos rfl, Memory.find, if_pos hkey.symm] at hc
        exact Option.some.inj hc
      have hcd : c = d := Prod.ext hkey hval
      subst hcd
      congr 1
      refine ih hm.2 hn.2 (fun a => ?_)
      by_cases ha : a < c.1 + 1
      · rw [Memory.find_of_lt hm.2 ha, Memory.find_of_lt hn.2 ha]
      · have := h a
        rwa [Memory.find, if_neg (by omega), Memory.find, if_neg (by omega)] at this

/-- A 7-bit cursor is an index of the buffer. -/
theorem cursor_lt_cap (c : Cursor) : c.toNat < Config.cap := c.isLt

/-- `IN_BUF` after one write. -/
@[simp] theorem State.storeIn_inByte (s : State) (i : Nat) (v : Byte) (k : Nat) :
    (s.storeIn i v).inByte k = if k = i then v else s.inByte k := by
  by_cases h : k = i <;> simp [State.inByte, State.storeIn, readOr, Memory.find_put, h]

/-- `OUT_BUF` after one write. -/
@[simp] theorem State.storeOut_outByte (s : State) (i : Nat) (v : Byte) (k : Nat) :
    (s.storeOut i v).outByte k = if k = i then v else s.outByte k := by
  by_cases h : k = i <;> simp [State.outByte, State.storeOut, readOr, Memory.find_put, h]

/-- `IN_BUF` after the end of a line: the end mark at its index (40_transport_receive.md R100). -/
@[simp] theorem State.endInputLine_inByte (s : State) (c : Cursor) (k : Nat) :
    (s.endInputLine c).inByte k = if k = c.toNat then s.params.endMark else s.inByte k :=
  State.storeIn_inByte s c.toNat s.params.endMark k

end Sys2Proof.Machine
end

