-- ==== Sys2Proof/Laws/Ops.lean ====
section
/-! SUPPORT. What each shared operation can do, said once: which fields it writes, and what it writes in each of its cases. -/

namespace Sys2Proof.Machine

/-! ## Phases and parameters -/

theorem Phase.crit_iff (p : Phase) : p.crit = true ↔ p = .drive ∨ p = .release := by cases p <;> decide

theorem Phase.busy_iff (p : Phase) : p.busy = true ↔ p ≠ .idle := by cases p <;> decide

/-- The constraints of 00_scope.md R8, as the sequencer uses them. -/
theorem Params.one_le_tDrv (p : Params) (q : Prim) : 1 ≤ p.tDrv q := by
  have h := p.legal
  simp only [Timing.legal, Bool.and_eq_true, decide_eq_true_eq] at h
  cases q <;> simp only [Params.tDrv, ticksOf] <;> omega

theorem Params.one_le_tRel (p : Params) (q : Prim) : 1 ≤ p.tRel q := by
  have h := p.legal
  simp only [Timing.legal, Bool.and_eq_true, decide_eq_true_eq] at h
  cases q <;> simp only [Params.tRel, ticksOf] <;> omega

theorem Params.one_le_tGap (p : Params) : 1 ≤ p.tGap := by
  have h := p.legal
  simp only [Timing.legal, Bool.and_eq_true, decide_eq_true_eq] at h
  simp only [Params.tGap]; omega

theorem Params.tSmp_lt_tRel (p : Params) {q : Prim} {k : Nat} (hk : p.tSmp q = some k) : k < p.tRel q := by
  have h := p.legal
  simp only [Timing.legal, Bool.and_eq_true, decide_eq_true_eq] at h
  cases q <;> simp only [Params.tSmp, Option.some.injEq, reduceCtorEq] at hk <;> simp only [Params.tRel, ticksOf] <;> omega

/-! ## Which fields an operation can write -/

/-- The receive event writes IN_BUF, IN_CUR, IN_READY and RX_EN, and nothing else (10_state.md R20). -/
theorem State.receive_frame (s : State) (b : Byte) :
    ∃ buf cur ready en, s.receive b = { s with inBuf := buf, inCur := cur, inReady := ready, rxEn := en } := by
  unfold State.receive
  split <;> exact ⟨_, _, _, _, rfl⟩

/-- A push writes OUT_BUF, OUT_CUR, TX_EN and the load port, and nothing else (10_state.md R20). -/
theorem State.push_frame (s : State) (b : Byte) :
    ∃ buf cur en wr d, s.push b =
      { s with outBuf := buf, outCur := cur, txEn := en, out := { s.out with txWr := wr, txData := d } } := by
  unfold State.push
  split
  · exact ⟨_, _, _, _, _, rfl⟩
  · split
    · exact ⟨_, _, _, _, _, rfl⟩
    · exact ⟨_, _, _, _, _, rfl⟩

/-- The transmit-complete event writes OUT_CUR, TX_EN, RX_EN and the load port, and nothing else (10_state.md R20). -/
theorem State.sendNext_frame (s : State) :
    ∃ cur en rx wr d, s.sendNext =
      { s with outCur := cur, txEn := en, rxEn := rx, out := { s.out with txWr := wr, txData := d } } := by
  unfold State.sendNext
  split <;> exact ⟨_, _, _, _, _, rfl⟩

/-- A sample writes OW_PRESENT, OW_RDBIT and OW_DATA at most (42_onewire_primitives.md R142). -/
theorem State.takeSample_frame (s : State) (v : Byte) :
    ∃ pr rd d, s.takeSample v = { s with owPresent := pr, owRdbit := rd, owData := d } := by
  unfold State.takeSample
  split <;> exact ⟨_, _, _, rfl⟩

/-- So does the sample of a release tick, if its tick has come. -/
theorem State.sampleAtItsTick_frame (s : State) (v : Byte) :
    ∃ pr rd d, s.sampleAtItsTick v = { s with owPresent := pr, owRdbit := rd, owData := d } := by
  unfold State.sampleAtItsTick
  split
  · exact s.takeSample_frame v
  · exact ⟨_, _, _, rfl⟩

/-- A sequencer tick writes OW_PHASE, OW_PRIM, OW_CNT, OW_BITN, OW_PRESENT, OW_RDBIT and OW_DATA at most: no transport state,
no port, and neither OW_MASK, OW_OP nor OW_LMASK (10_state.md R20, 00_scope.md R7). -/
theorem State.owTick_frame (s : State) (ph : Phase) (v : Byte) :
    ∃ phase prim cnt bitn pr rd d, s.owTick ph v =
      { s with
        owPhase := phase, owPrim := prim, owCnt := cnt, owBitn := bitn, owPresent := pr, owRdbit := rd, owData := d } := by
  obtain ⟨pr, rd, d, hs⟩ := s.sampleAtItsTick_frame v
  cases ph with
  | idle => exact ⟨_, _, _, _, _, _, _, rfl⟩
  | drive =>
    simp only [State.owTick, State.driveTick]
    split <;> exact ⟨_, _, _, _, _, _, _, rfl⟩
  | gap =>
    simp only [State.owTick, State.gapTick]
    split <;> exact ⟨_, _, _, _, _, _, _, rfl⟩
  | release =>
    simp only [State.owTick, State.releaseTick, hs, State.endPrimitive]
    split <;> (try split) <;> exact ⟨_, _, _, _, _, _, _, rfl⟩

/-! ## What an operation of the instruction set can do -/

/-- What `exec` answers when it answers a next state: nothing changed, a read's answer, a command accepted, a register
written, a flag command, a push, a received byte, the next byte sent. -/
theorem exec_cases {i : Instr} {s t : State} (h : exec i s = .next t) :
    t = s ∨ (∃ v, t = s.answer v) ∨ (∃ op, op ≠ .noCommand ∧ s.owPhase = .idle ∧ t = s.accept op) ∨
    (∃ m, i = .owSetmask m ∧ s.owPhase = .idle ∧ t = { s with owMask := m }) ∨
    (∃ d, i = .owSetdata d ∧ s.owPhase = .idle ∧ t = { s with owData := d }) ∨
    (i = .tpAck ∧ t = { s with inReady := false }) ∨ (i = .tpArm ∧ t = { s with rxEn := true }) ∨
    (i = .tpAckarm ∧ t = { s with inReady := false, rxEn := true }) ∨
    (∃ b, i = .tpPush b ∧ s.txEn = false ∧ t = s.push b) ∨
    (∃ b, i = .rxEvent b ∧ s.rxOpen = true ∧ t = s.receive b) ∨
    (i = .txDone ∧ s.txOpen = true ∧ t = s.sendNext) := by
  have command : ∀ op, op ≠ OwOp.noCommand → t = s.command op →
      t = s ∨ ∃ op, op ≠ .noCommand ∧ s.owPhase = .idle ∧ t = s.accept op := by
    intro op hop ht
    unfold State.command at ht
    split at ht
    · next hph => exact .inr ⟨op, hop, hph, ht⟩
    · exact .inl ht
    · exact .inl ht
    · exact .inl ht
  cases i with
  | owReset => cases h; exact (command .reset (by decide) rfl).imp_right (fun h => .inr (.inl h))
  | owWrite0 => cases h; exact (command .write0 (by decide) rfl).imp_right (fun h => .inr (.inl h))
  | owWrite1 => cases h; exact (command .write1 (by decide) rfl).imp_right (fun h => .inr (.inl h))
  | owReadbit => cases h; exact (command .readbit (by decide) rfl).imp_right (fun h => .inr (.inl h))
  | owSendbyte => cases h; exact (command .sendbyte (by decide) rfl).imp_right (fun h => .inr (.inl h))
  | owRecvbyte => cases h; exact (command .recvbyte (by decide) rfl).imp_right (fun h => .inr (.inl h))
  | owSetmask m =>
    simp only [exec, execOwSetmask] at h
    split at h
    · next hph => cases h; exact .inr (.inr (.inr (.inl ⟨m, rfl, hph, rfl⟩)))
    all_goals cases h; exact .inl rfl
  | owSetdata d =>
    simp only [exec, execOwSetdata] at h
    split at h
    · next hph => cases h; exact .inr (.inr (.inr (.inr (.inl ⟨d, rfl, hph, rfl⟩))))
    all_goals cases h; exact .inl rfl
  | tpAck => cases h; exact .inr (.inr (.inr (.inr (.inr (.inl ⟨rfl, rfl⟩)))))
  | tpArm => cases h; exact .inr (.inr (.inr (.inr (.inr (.inr (.inl ⟨rfl, rfl⟩))))))
  | tpAckarm => cases h; exact .inr (.inr (.inr (.inr (.inr (.inr (.inr (.inl ⟨rfl, rfl⟩)))))))
  | tpPush b =>
    simp only [exec, execTpPush] at h
    split at h
    · cases h; exact .inl rfl
    · next htx => cases h; exact .inr (.inr (.inr (.inr (.inr (.inr (.inr (.inr (.inl ⟨b, rfl, by simpa using htx, rfl⟩))))))))
  | rxEvent b =>
    simp only [exec, execRxEvent] at h
    split at h
    · next hrx => cases h; exact .inr (.inr (.inr (.inr (.inr (.inr (.inr (.inr (.inr (.inl ⟨b, rfl, hrx, rfl⟩)))))))))
    · cases h; exact .inl rfl
  | txDone =>
    simp only [exec, execTxDone] at h
    split at h
    · next htx => cases h; exact .inr (.inr (.inr (.inr (.inr (.inr (.inr (.inr (.inr (.inr (⟨rfl, htx, rfl⟩))))))))))
    · cases h; exact .inl rfl
  | tpRdbuf n => cases h; exact .inr (.inl ⟨_, rfl⟩)
  | owGetcmd => cases h; exact .inr (.inl ⟨_, rfl⟩)
  | owGetmask => cases h; exact .inr (.inl ⟨_, rfl⟩)
  | owGetdata => cases h; exact .inr (.inl ⟨_, rfl⟩)
  | owGetstat => cases h; exact .inr (.inl ⟨_, rfl⟩)
  | tpGetstat => cases h; exact .inr (.inl ⟨_, rfl⟩)
  | tpGetincur => cases h; exact .inr (.inl ⟨_, rfl⟩)
  | tpGetoutcur => cases h; exact .inr (.inl ⟨_, rfl⟩)
  | rsvdW addr data => cases h; exact .inl rfl
  | rsvdR addr => cases h; exact .inr (.inl ⟨_, rfl⟩)

end Sys2Proof.Machine
end

