-- ==== Sys2Proof/Laws/Step.lean ====
section
/-! SUPPORT. The fields of the words, what the selected word of a tick names, and what a tick can do, said once. -/

namespace Sys2Proof

/-! ## Words and their fields -/

/-- The bits of a host word. -/
theorem getLsbD_hostWord (we : Bool) (addr data : Byte) (k : Nat) :
    (hostWord we addr data).getLsbD k =
      if k < 8 then data.getLsbD k else if k < 16 then addr.getLsbD (k - 8) else (BitVec.ofBool we).getLsbD (k - 16) := by
  change (BitVec.ofBool we ++ (addr ++ data) : BitVec (1 + (8 + 8))).getLsbD k = _
  rw [BitVec.getLsbD_append, BitVec.getLsbD_append]
  split
  · rfl
  · rw [if_neg (by omega)]

/-- The bits of an event word. -/
theorem getLsbD_eventWord (kind : BitVec 2) (data : Byte) (k : Nat) :
    (eventWord kind data).getLsbD k = if k < 8 then data.getLsbD k else kind.getLsbD (k - 8) :=
  BitVec.getLsbD_append (x := kind) (y := data) (i := k)

@[simp] theorem we_hostWord (we : Bool) (addr data : Byte) : HostWord.we (hostWord we addr data) = we := by
  rw [HostWord.we, getLsbD_hostWord]
  cases we <;> rfl

@[simp] theorem addr_hostWord (we : Bool) (addr data : Byte) : HostWord.addr (hostWord we addr data) = addr := by
  apply BitVec.eq_of_getLsbD_eq
  intro k hk
  rw [HostWord.addr, BitVec.getLsbD_extractLsb', getLsbD_hostWord, if_neg (by omega), if_pos (by omega)]
  simp [hk]

@[simp] theorem data_hostWord (we : Bool) (addr data : Byte) : HostWord.data (hostWord we addr data) = data := by
  apply BitVec.eq_of_getLsbD_eq
  intro k hk
  rw [HostWord.data, BitVec.getLsbD_extractLsb', getLsbD_hostWord, if_pos (by omega)]
  simp [hk]

/-- A host word is its three fields. -/
theorem hostWord_fields (w : HostWord) : hostWord (HostWord.we w) (HostWord.addr w) (HostWord.data w) = w := by
  apply BitVec.eq_of_getLsbD_eq
  intro k hk
  rw [getLsbD_hostWord]
  split
  · next h8 => rw [HostWord.data, BitVec.getLsbD_extractLsb']; simp [h8]
  · split
    · next h8 h16 =>
      rw [HostWord.addr, BitVec.getLsbD_extractLsb', show 8 + (k - 8) = k by omega]
      simp [show k - 8 < 8 by omega]
    · have h : k = 16 := by omega
      subst h
      simp [HostWord.we]

@[simp] theorem kind_eventWord (kind : BitVec 2) (data : Byte) : EventWord.kind (eventWord kind data) = kind := by
  apply BitVec.eq_of_getLsbD_eq
  intro k hk
  rw [EventWord.kind, BitVec.getLsbD_extractLsb', getLsbD_eventWord, if_neg (by omega)]
  simp [hk]

@[simp] theorem data_eventWord (kind : BitVec 2) (data : Byte) : EventWord.data (eventWord kind data) = data := by
  apply BitVec.eq_of_getLsbD_eq
  intro k hk
  rw [EventWord.data, BitVec.getLsbD_extractLsb', getLsbD_eventWord, if_pos (by omega)]
  simp [hk]

/-- The operation a host access names (20_memory.md R61). -/
@[simp] theorem decode_hostWord (we : Bool) (addr data : Byte) :
    decode (.host (hostWord we addr data)) = .instr (if we then decodeWrite addr data else decodeRead addr) := by
  simp [decode, decodeHost]

@[simp] theorem decode_receiveWord (b : Byte) : decode (.event (eventWord 0b01#2 b)) = .instr (.rxEvent b) := by
  simp [decode, decodeEvent]

@[simp] theorem decode_reportWord (b : Byte) : decode (.event (eventWord 0b10#2 b)) = .instr .txDone := by
  simp [decode, decodeEvent]

namespace Machine

/-! ## The inputs of the coming ticks -/

@[simp] theorem State.placeInput_inputAt_zero (s : State) (i : Input) : (s.placeInput i).inputAt 0 = i := rfl

/-- A tick uses up one input: the tick `k` after it has the inputs of the tick `k + 1` before it. -/
theorem State.inputAt_of_tail {s t : State} (hi : t.inputs = s.inputs.tail) (ht : t.tick = s.tick + 1) (k : Nat) :
    t.inputAt k = s.inputAt (k + 1) := by
  simp only [State.inputAt, hi, ht, List.getElem?_tail]
  rw [show s.tick + 1 + k = s.tick + (k + 1) by omega]

/-! ## What a tick can do -/

/-- The operation a tick performs, by the rule of 60_exceptions.md R224, or none. -/
def State.action (s : State) (i : Input) : Option Instr :=
  if i.hReq then some (if i.hWe then decodeWrite i.hAddr i.hWdata else decodeRead i.hAddr)
  else if i.rxValid && s.rxOpen then some (.rxEvent i.rxData)
  else if i.txcValid && s.txOpen then some .txDone
  else none

/-- A tick with reset. -/
theorem step_of_rst {s : State} (h : (s.inputAt 0).rst = true) : step s = .next (s.begin (s.inputAt 0)).resetTick := by
  simp [step, h]

/-- A tick without reset that performs an operation. -/
theorem step_of_action {s : State} {i : Instr} (h : (s.inputAt 0).rst = false)
    (ha : s.action (s.inputAt 0) = some i) :
    step s = match exec i (s.begin (s.inputAt 0)) with
      | .next t => .next (t.owTick s.owPhase (s.inputAt 0).owIn)
      | .fault f => .fault f
      | .refused r => .refused r := by
  simp only [State.action] at ha
  simp only [step, h, State.select]
  split at ha
  · next hh => simp only [hh, if_true, execWord, decode_hostWord]; cases ha; rfl
  · next hh =>
    simp only [hh, if_false, Bool.false_eq_true]
    split at ha
    · next hr => simp only [hr, if_true, execWord, decode_receiveWord]; cases ha; rfl
    · next hr =>
      simp only [hr, if_false, Bool.false_eq_true]
      split at ha
      · next hx => simp only [hx, if_true, execWord, decode_reportWord]; cases ha; rfl
      · cases ha

/-- A tick without reset that performs none. -/
theorem step_of_none {s : State} (h : (s.inputAt 0).rst = false) (ha : s.action (s.inputAt 0) = none) :
    step s = .next ((s.begin (s.inputAt 0)).owTick s.owPhase (s.inputAt 0).owIn) := by
  simp only [State.action] at ha
  simp only [step, h, State.select]
  split at ha
  · cases ha
  · next hh =>
    split at ha
    · cases ha
    · next hr =>
      split at ha
      · cases ha
      · next hx => simp [hh, hr, hx]

/-- What a tick can do, if it answers a next state: reset; or nothing but the sequencer; or one operation and then the
sequencer. -/
theorem step_cases {s t : State} (h : step s = .next t) :
    ((s.inputAt 0).rst = true ∧ t = (s.begin (s.inputAt 0)).resetTick) ∨
    ((s.inputAt 0).rst = false ∧ s.action (s.inputAt 0) = none ∧
      t = (s.begin (s.inputAt 0)).owTick s.owPhase (s.inputAt 0).owIn) ∨
    ((s.inputAt 0).rst = false ∧ ∃ i u, s.action (s.inputAt 0) = some i ∧
      exec i (s.begin (s.inputAt 0)) = .next u ∧ t = u.owTick s.owPhase (s.inputAt 0).owIn) := by
  cases hr : (s.inputAt 0).rst with
  | true => rw [step_of_rst hr] at h; cases h; exact .inl ⟨rfl, rfl⟩
  | false =>
    cases ha : s.action (s.inputAt 0) with
    | none => rw [step_of_none hr ha] at h; cases h; exact .inr (.inl ⟨rfl, rfl, rfl⟩)
    | some i =>
      rw [step_of_action hr ha] at h
      refine .inr (.inr ⟨rfl, i, ?_⟩)
      cases he : exec i (s.begin (s.inputAt 0)) with
      | next u => rw [he] at h; cases h; exact ⟨u, rfl, rfl, rfl⟩
      | fault f => rw [he] at h; cases h
      | refused r => rw [he] at h; cases h

/-! ## A running command -/

/-- The state with its transport side, its ports and its place in the run replaced: what a tick can change beside the one-wire
unit's own state. -/
def State.withTransport (s : State) (u : State) : State :=
  { s with
    inBuf := u.inBuf, inCur := u.inCur, inReady := u.inReady, rxEn := u.rxEn, outBuf := u.outBuf, outCur := u.outCur,
    txEn := u.txEn, out := u.out, inputs := u.inputs, tick := u.tick, epoch := u.epoch }

/-- A sample neither reads nor writes the transport side. -/
theorem State.takeSample_withTransport (s u : State) (v : Byte) :
    (s.withTransport u).takeSample v = (s.takeSample v).withTransport u := by
  obtain ⟨_, _, _, _, _, _, _, _, _, _, _, prim, _, _, _, _, _, _, _, _, _, _⟩ := s
  cases prim <;> rfl

/-- Nor does a sample that may not have its tick. -/
theorem State.sampleAtItsTick_withTransport (s u : State) (v : Byte) :
    (s.withTransport u).sampleAtItsTick v = (s.sampleAtItsTick v).withTransport u := by
  unfold State.sampleAtItsTick
  change (if s.params.tSmp s.owPrim = some s.owCnt then _ else _) = _
  by_cases h : s.params.tSmp s.owPrim = some s.owCnt
  · rw [if_pos h, if_pos h]
    exact State.takeSample_withTransport s u v
  · rw [if_neg h, if_neg h]

/-- Nor does the end of a primitive. -/
theorem State.endPrimitive_withTransport (s u : State) :
    (s.withTransport u).endPrimitive = s.endPrimitive.withTransport u := by
  unfold State.endPrimitive
  change (if s.owOp.isByteOp = true then _ else _) = _
  by_cases h : s.owOp.isByteOp = true
  · rw [if_pos h, if_pos h]; rfl
  · rw [if_neg h, if_neg h]; rfl

/-- The sequencer neither reads nor writes the transport side. -/
theorem State.owTick_withTransport (s u : State) (ph : Phase) (v : Byte) :
    (s.withTransport u).owTick ph v = (s.owTick ph v).withTransport u := by
  cases ph with
  | idle => rfl
  | drive =>
    simp only [State.owTick, State.driveTick]
    change (if s.owCnt + 1 = s.params.tDrv s.owPrim then _ else _) = _
    by_cases h : s.owCnt + 1 = s.params.tDrv s.owPrim
    · rw [if_pos h, if_pos h]; rfl
    · rw [if_neg h, if_neg h]; rfl
  | gap =>
    simp only [State.owTick, State.gapTick]
    change (if s.owCnt + 1 = s.params.tGap then _ else _) = _
    by_cases h : s.owCnt + 1 = s.params.tGap
    · rw [if_pos h, if_pos h]; rfl
    · rw [if_neg h, if_neg h]; rfl
  | release =>
    simp only [State.owTick, State.releaseTick, State.sampleAtItsTick_withTransport]
    change (if s.owCnt + 1 = s.params.tRel s.owPrim then _ else _) = _
    by_cases h : s.owCnt + 1 = s.params.tRel s.owPrim
    · rw [if_pos h, if_pos h, State.endPrimitive_withTransport]
    · rw [if_neg h, if_neg h]; rfl

/-- While a command runs, an operation changes nothing of the one-wire unit (20_memory.md R72). -/
theorem exec_of_busy {i : Instr} {s t : State} (he : exec i s = .next t) (hp : s.owPhase ≠ .idle) :
    t = s.withTransport t := by
  rcases exec_cases he with rfl | ⟨v, rfl⟩ | ⟨op, _, hi, rfl⟩ | ⟨m, _, hi, rfl⟩ | ⟨d, _, hi, rfl⟩ | ⟨_, rfl⟩ | ⟨_, rfl⟩ |
    ⟨_, rfl⟩ | ⟨b, _, _, rfl⟩ | ⟨b, _, _, rfl⟩ | ⟨_, _, rfl⟩
  · rfl
  · rfl
  · exact absurd hi hp
  · exact absurd hi hp
  · exact absurd hi hp
  · rfl
  · rfl
  · rfl
  · obtain ⟨_, _, _, _, _, h⟩ := s.push_frame b; rw [h]; rfl
  · obtain ⟨_, _, _, _, h⟩ := s.receive_frame b; rw [h]; rfl
  · obtain ⟨_, _, _, _, _, h⟩ := s.sendNext_frame; rw [h]; rfl

/-- No operation touches the parameters or the state's place in the run. -/
theorem exec_keeps_run {i : Instr} {s t : State} (he : exec i s = .next t) :
    t.params = s.params ∧ t.inputs = s.inputs ∧ t.tick = s.tick ∧ t.epoch = s.epoch := by
  rcases exec_cases he with rfl | ⟨v, rfl⟩ | ⟨op, _, hi, rfl⟩ | ⟨m, _, hi, rfl⟩ | ⟨d, _, hi, rfl⟩ | ⟨_, rfl⟩ | ⟨_, rfl⟩ |
    ⟨_, rfl⟩ | ⟨b, _, _, rfl⟩ | ⟨b, _, _, rfl⟩ | ⟨_, _, rfl⟩
  all_goals first | exact ⟨rfl, rfl, rfl, rfl⟩ | skip
  · obtain ⟨_, _, _, _, _, h⟩ := s.push_frame b; rw [h]; exact ⟨rfl, rfl, rfl, rfl⟩
  · obtain ⟨_, _, _, _, h⟩ := s.receive_frame b; rw [h]; exact ⟨rfl, rfl, rfl, rfl⟩
  · obtain ⟨_, _, _, _, _, h⟩ := s.sendNext_frame; rw [h]; exact ⟨rfl, rfl, rfl, rfl⟩

/-- A tick without reset that starts busy: if it answers a next state, the one-wire unit advanced by one sequencer tick and
nothing else of it changed, whatever else happened; one input was used up. -/
theorem step_of_busy {s t : State} (hr : (s.inputAt 0).rst = false) (hp : s.owPhase ≠ .idle) (h : step s = .next t) :
    t = (s.owTick s.owPhase (s.inputAt 0).owIn).withTransport t ∧ t.inputs = s.inputs.tail ∧ t.tick = s.tick + 1 ∧
    t.epoch = s.epoch := by
  have beginEq : s.begin (s.inputAt 0) = s.withTransport (s.begin (s.inputAt 0)) := rfl
  rcases step_cases h with ⟨hr', _⟩ | ⟨_, _, rfl⟩ | ⟨_, i, u, _, he, rfl⟩
  · rw [hr] at hr'; cases hr'
  · rw [beginEq, State.owTick_withTransport]
    exact ⟨rfl, rfl, rfl, rfl⟩
  · have hu := exec_of_busy he (show (s.begin (s.inputAt 0)).owPhase ≠ .idle from hp)
    obtain ⟨_, h2, h3, h4⟩ := exec_keeps_run he
    have hs : u = s.withTransport u := hu.trans rfl
    rw [hs, State.owTick_withTransport]
    exact ⟨rfl, h2, h3, h4⟩

/-! ## Runs -/

@[simp] theorem afterTicks_zero (s : State) : afterTicks 0 s = some s := rfl

theorem afterTicks_succ {n : Nat} {s t : State} (h : step s = .next t) : afterTicks (n + 1) s = afterTicks n t := by
  simp [afterTicks, h]

/-- A run of `m + n` ticks is a run of `m` and then one of `n`. -/
theorem afterTicks_add {m n : Nat} {s t : State} (h : afterTicks m s = some t) :
    afterTicks (m + n) s = afterTicks n t := by
  induction m generalizing s with
  | zero => cases h; simp
  | succ m ih =>
    rw [Nat.succ_add]
    simp only [afterTicks] at h ⊢
    split at h
    · next u hu => exact ih h
    all_goals cases h

end Machine

end Sys2Proof
end

