-- ==== Sys2Proof/Laws/HostScript.lean ====
section
/-! SUPPORT. What a host access does, and the small lemmas of the host's scripts. -/

namespace Sys2Proof.Machine

@[simp] theorem pushedBytes_zero (bytes : List Byte) : pushedBytes 0 bytes = [] := by cases bytes <;> rfl

@[simp] theorem pushedBytes_nil (room : Nat) : pushedBytes room [] = [] := by cases room <;> rfl

@[simp] theorem pushedBytes_cons (room : Nat) (b : Byte) (rest : List Byte) :
    pushedBytes (room + 1) (b :: rest) = if b = Config.term then [b] else b :: pushedBytes room rest := rfl

/-- A Write pushes no more than there is room for (41_transport_transmit.md R124). -/
theorem length_pushedBytes_le (room : Nat) (bytes : List Byte) : (pushedBytes room bytes).length ≤ room := by
  induction room generalizing bytes with
  | zero => simp
  | succ room ih =>
    cases bytes with
    | nil => simp
    | cons b rest =>
      rw [pushedBytes_cons]
      split
      · simp
      · simpa using ih rest

@[simp] theorem droppedBytes_nil : droppedBytes [] = [] := rfl

@[simp] theorem droppedBytes_cons (b : Byte) (rest : List Byte) :
    droppedBytes (b :: rest) = if b = Config.term then [b] else b :: droppedBytes rest := rfl

/-- While a line is being sent, a Write of a line without a terminator pushes all of it (41_transport_transmit.md R121, R124). -/
theorem droppedBytes_of_no_term {line : List Byte} (h : Config.term ∉ line) : droppedBytes line = line := by
  induction line with
  | nil => rfl
  | cons b rest ih =>
    rw [List.mem_cons, not_or] at h
    rw [droppedBytes_cons, if_neg (fun hb => h.1 hb.symm), ih h.2]

/-- The room with `TX_EN = 0`: what the cursor leaves up to index 126 (10_state.md R47 INV-2). -/
theorem State.writeRoom_eq {s : State} (h : s.outCur.toNat ≤ 126) : s.writeRoom = 127 - s.outCur.toNat := by
  unfold State.writeRoom
  have : (Config.lastIndex - 1#7 - s.outCur).toNat = 126 - s.outCur.toNat := by
    rw [show Config.lastIndex - 1#7 = 126#7 by decide, BitVec.toNat_sub_of_le (by rw [BitVec.le_def]; simpa using h)]
    rfl
  omega

/-- A Write that finds no line being sent (41_transport_transmit.md R124). -/
theorem writeLine_of_idle {s : State} (ht : s.txEn = false) (h : s.outCur.toNat ≤ 126) (line : List Byte) :
    writeLine s line = (pushedBytes (127 - s.outCur.toNat) line).map .tpPush := by
  simp [writeLine, ht, State.writeRoom_eq h]

/-- A Write while a line is being sent (41_transport_transmit.md R121). -/
theorem writeLine_of_sending {s : State} (ht : s.txEn = true) (line : List Byte) :
    writeLine s line = (droppedBytes line).map .tpPush := by
  simp [writeLine, ht]

@[simp] theorem hostWaits_zero (s : State) : hostWaits 0 s = some s := rfl

@[simp] theorem writePaced_nil (s : State) : writePaced [] s = some s := rfl

/-- One push of a Write and what follows it. -/
theorem writePaced_cons {wait : Nat} {b : Byte} {rest : List (Nat × Byte)} {s t u : State} (hw : hostWaits wait s = some t)
    (hp : hostAccess (.tpPush b) t = some u) :
    writePaced ((wait, b) :: rest) s = if t.endsWrite b then some u else writePaced rest u := by
  simp [writePaced, hw, hp]

/-- A host access is one tick: its operation on the state at the tick's beginning, then one sequencer tick. -/
theorem hostAccess_of_exec {i : Instr} {w : HostWord} {s u : State} (hw : encode i = .host w) (hd : decodeHost w = i)
    (he : exec i ((s.placeInput ((s.inputAt 0).withHostWord w)).begin ((s.inputAt 0).withHostWord w)) = .next u) :
    hostAccess i s = some (u.owTick s.owPhase (s.inputAt 0).owIn) := by
  have ha : (s.placeInput ((s.inputAt 0).withHostWord w)).action ((s.inputAt 0).withHostWord w) = some i :=
    congrArg some hd
  unfold hostAccess
  rw [hw]
  dsimp only
  rw [step_of_action rfl ha, State.placeInput_inputAt_zero, he]
  rfl

@[simp] theorem hostAccesses_nil (s : State) : hostAccesses [] s = some s := rfl

/-- Host accesses run one after the other. -/
theorem hostAccesses_cons {i : Instr} {rest : List Instr} {s t : State} (h : hostAccess i s = some t) :
    hostAccesses (i :: rest) s = hostAccesses rest t := by
  simp [hostAccesses, h]

end Sys2Proof.Machine
end

