-- ==== Sys2Proof/Laws/PerInstr.lean ====
section
/-! SUPPORT. Statements about the operations as syntax, one lemma per constructor of `Instr`. -/

namespace Sys2Proof.Laws

/-- An operation is encoded in its own format: an event action as an event word (spec/30_encoding.md R81), every other as a host
word (R80). -/
def EncodesInItsFormat.Statement (i : Instr) : Prop := (encode i).isEvent = i.isEvent

theorem EncodesInItsFormat.owReset : EncodesInItsFormat.Statement .owReset := rfl
theorem EncodesInItsFormat.owWrite0 : EncodesInItsFormat.Statement .owWrite0 := rfl
theorem EncodesInItsFormat.owWrite1 : EncodesInItsFormat.Statement .owWrite1 := rfl
theorem EncodesInItsFormat.owReadbit : EncodesInItsFormat.Statement .owReadbit := rfl
theorem EncodesInItsFormat.owSendbyte : EncodesInItsFormat.Statement .owSendbyte := rfl
theorem EncodesInItsFormat.owRecvbyte : EncodesInItsFormat.Statement .owRecvbyte := rfl
theorem EncodesInItsFormat.owSetmask (m : Byte) : EncodesInItsFormat.Statement (.owSetmask m) := rfl
theorem EncodesInItsFormat.owSetdata (d : Byte) : EncodesInItsFormat.Statement (.owSetdata d) := rfl
theorem EncodesInItsFormat.tpAck : EncodesInItsFormat.Statement .tpAck := rfl
theorem EncodesInItsFormat.tpArm : EncodesInItsFormat.Statement .tpArm := rfl
theorem EncodesInItsFormat.tpAckarm : EncodesInItsFormat.Statement .tpAckarm := rfl
theorem EncodesInItsFormat.tpPush (b : Byte) : EncodesInItsFormat.Statement (.tpPush b) := rfl
theorem EncodesInItsFormat.tpRdbuf (k : BitVec 7) : EncodesInItsFormat.Statement (.tpRdbuf k) := rfl
theorem EncodesInItsFormat.owGetcmd : EncodesInItsFormat.Statement .owGetcmd := rfl
theorem EncodesInItsFormat.owGetmask : EncodesInItsFormat.Statement .owGetmask := rfl
theorem EncodesInItsFormat.owGetdata : EncodesInItsFormat.Statement .owGetdata := rfl
theorem EncodesInItsFormat.owGetstat : EncodesInItsFormat.Statement .owGetstat := rfl
theorem EncodesInItsFormat.tpGetstat : EncodesInItsFormat.Statement .tpGetstat := rfl
theorem EncodesInItsFormat.tpGetincur : EncodesInItsFormat.Statement .tpGetincur := rfl
theorem EncodesInItsFormat.tpGetoutcur : EncodesInItsFormat.Statement .tpGetoutcur := rfl
theorem EncodesInItsFormat.rxEvent (b : Byte) : EncodesInItsFormat.Statement (.rxEvent b) := rfl
theorem EncodesInItsFormat.txDone : EncodesInItsFormat.Statement .txDone := rfl
theorem EncodesInItsFormat.rsvdW (addr data : Byte) : EncodesInItsFormat.Statement (.rsvdW addr data) := rfl
theorem EncodesInItsFormat.rsvdR (addr : Byte) : EncodesInItsFormat.Statement (.rsvdR addr) := rfl

end Sys2Proof.Laws
end

