-- ==== Sys2Proof/Tests/Slice0.lean ====
section
/-! SUPPORT. Tests: refused ill-formed terms, words written out from spec/30_encoding.md, single ticks from the vectors of
spec/95_test_vectors.md, and for every statement with hypotheses a state and operands that meet them. -/

namespace Sys2Proof.Tests

open Sys2Proof.Machine

/-! ## Well-formedness -/

/-- A named row selects the word 0x18001, so it is no RSVD.W (30_encoding.md R85). -/
theorem test_wf_refuses_named_command : (Instr.rsvdW 0x80#8 0x01#8).wf = false := by decide

/-- TP.CTRL with ACK set is named. -/
theorem test_wf_refuses_named_control : (Instr.rsvdW 0x85#8 0xFD#8).wf = false := by decide

/-- OW_MASK is writable. -/
theorem test_wf_refuses_named_register : (Instr.rsvdW 0x81#8 0x00#8).wf = false := by decide

/-- The input buffer's window is readable. -/
theorem test_wf_refuses_named_read : (Instr.rsvdR 0x7F#8).wf = false := by decide

/-- OW_STAT is readable. -/
theorem test_wf_refuses_named_status_read : (Instr.rsvdR 0x83#8).wf = false := by decide

/-- V-OW-18 and 44_host_access.md R199: reserved words are well-formed reserved operations. -/
theorem test_wf_accepts_reserved :
    (Instr.rsvdW 0x80#8 0x81#8).wf = true ∧ (Instr.rsvdW 0x85#8 0xFC#8).wf = true ∧ (Instr.rsvdW 0x89#8 0x00#8).wf = true ∧
    (Instr.rsvdR 0x89#8).wf = true ∧ (Instr.rsvdR 0x86#8).wf = true := by decide

/-! ## Decoding: words written out bit by bit, `we addr data`, from 30_encoding.md R80, R81, R85 -/

theorem test_decode_commands :
    decode (.host 0b1_10000000_00000001#17) = .instr .owReset ∧
    decode (.host 0b1_10000000_00000010#17) = .instr .owWrite0 ∧
    decode (.host 0b1_10000000_00000011#17) = .instr .owWrite1 ∧
    decode (.host 0b1_10000000_00000100#17) = .instr .owReadbit ∧
    decode (.host 0b1_10000000_00000101#17) = .instr .owSendbyte ∧
    decode (.host 0b1_10000000_00000110#17) = .instr .owRecvbyte := by decide

theorem test_decode_mask_and_data :
    decode (.host 0b1_10000001_00000101#17) = .instr (.owSetmask 0x05#8) ∧
    decode (.host 0b1_10000010_11001100#17) = .instr (.owSetdata 0xCC#8) := by decide

/-- Only `data[1:0]` is decoded; the upper bits are ignored (30_encoding.md R82, word 185FD of 95_test_vectors.md
2.1). -/
theorem test_decode_control :
    decode (.host 0b1_10000101_00000001#17) = .instr .tpAck ∧ decode (.host 0b1_10000101_11111101#17) = .instr .tpAck ∧
    decode (.host 0b1_10000101_00000010#17) = .instr .tpArm ∧
    decode (.host 0b1_10000101_10000011#17) = .instr .tpAckarm := by decide

theorem test_decode_push : decode (.host 0b1_10000110_00001010#17) = .instr (.tpPush 0x0A#8) := by decide

/-- The data field of a read is ignored: word 001FF is TP.RDBUF 1 (95_test_vectors.md 2.1). -/
theorem test_decode_rdbuf :
    decode (.host 0b0_00000001_11111111#17) = .instr (.tpRdbuf 1#7) ∧
    decode (.host 0b0_01111111_00000000#17) = .instr (.tpRdbuf 127#7) := by decide

theorem test_decode_reads :
    decode (.host 0b0_10000000_00000000#17) = .instr .owGetcmd ∧
    decode (.host 0b0_10000001_10101011#17) = .instr .owGetmask ∧
    decode (.host 0b0_10000010_00000000#17) = .instr .owGetdata ∧
    decode (.host 0b0_10000011_00000000#17) = .instr .owGetstat ∧
    decode (.host 0b0_10000100_00000000#17) = .instr .tpGetstat ∧
    decode (.host 0b0_10000111_00000000#17) = .instr .tpGetincur ∧
    decode (.host 0b0_10001000_00000000#17) = .instr .tpGetoutcur := by decide

theorem test_decode_events :
    decode (.event 0b01_00111010#10) = .instr (.rxEvent 0x3A#8) ∧ decode (.event 0b10_00000000#10) = .instr .txDone ∧
    decode (.event 0b00_00111010#10) = .rejected (.notAnEvent 0#2) ∧
    decode (.event 0b11_00000000#10) = .rejected (.notAnEvent 3#2) := by decide

/-- The whole data byte of a command is compared: 0x81 is no OW.RESET (30_encoding.md R82). -/
theorem test_decode_reserved :
    decode (.host 0b1_10000000_10000001#17) = .instr (.rsvdW 0x80#8 0x81#8) ∧
    decode (.host 0b1_10000011_11111111#17) = .instr (.rsvdW 0x83#8 0xFF#8) ∧
    decode (.host 0b0_11000000_00000000#17) = .instr (.rsvdR 0xC0#8) ∧
    decode (.host 0b0_10000110_00000000#17) = .instr (.rsvdR 0x86#8) := by decide

theorem test_table_words :
    decodeTableWord 24 0x18001 = some .owReset ∧ decodeTableWord 16 0x13A = some (.rxEvent 0x3A#8) ∧
    decodeTableWord 16 0x200 = some .txDone ∧ decodeTableWord 24 0x18600 = some (.tpPush 0x00#8) := by decide

/-! ## States and ticks: the toy calibration TOY of 42_onewire_primitives.md, END_MARK 0x00, ANY_HIGH -/

def toyParams : Params := ⟨0x00#8, .anyHigh, ⟨⟨4, 3, 1, 1⟩, ⟨4, 1, 3, 3⟩, 1, 1, 2⟩, by decide⟩

/-- A tick in which nothing happens and every line is high. -/
def calm : Input := ⟨false, false, false, 0x00#8, 0x00#8, false, 0x00#8, false, 0xFF#8⟩

def writing (addr data : Byte) : Input := { calm with hReq := true, hWe := true, hAddr := addr, hWdata := data }

def reading (addr : Byte) : Input := { calm with hReq := true, hAddr := addr }

def offering (b : Byte) : Input := { calm with rxValid := true, rxData := b }

def reporting : Input := { calm with txcValid := true }

/-- The reset state with TOY and the given inputs to come. -/
def toy (inputs : List Input) : State := { State.reset with params := toyParams, inputs := inputs }

/-- A tick in which the block stands in DRIVE, RELEASE or GAP of a byte command. -/
def running (phase : Phase) (cnt : Nat) (inputs : List Input) : State :=
  { toy inputs with owPhase := phase, owOp := .recvbyte, owPrim := .read, owCnt := cnt, owMask := 0x01#8, owLmask := 0x01#8 }

/-- The state after the next tick. -/
def after (s : State) : State :=
  match step s with
  | .next t => t
  | .fault _ => s
  | .refused _ => s

/-! ## One tick of each operation -/

/-- V-OW-10, tick 0: accepted, first driven tick is the next. -/
theorem test_reset_accepted :
    let t := after { toy [writing 0x80#8 0x01#8] with owMask := 0x05#8 }
    t.owPhase = .drive ∧ t.owPrim = .reset ∧ t.owCnt = 0 ∧ t.owLmask = 0x05#8 ∧ t.out.owOe = 0x00#8 := by decide

/-- 42_onewire_primitives.md R144, example, tick 6: the sample finds the one targeted line low. -/
theorem test_reset_samples_presence :
    let t := after { toy [{ calm with owIn := 0xFE#8 }] with
      owPhase := .release, owOp := .reset, owPrim := .reset, owCnt := 1, owLmask := 0x01#8 }
    t.owPresent = true ∧ t.owPhase = .release ∧ t.owCnt = 2 := by decide

/-- V-OW-11, tick 3: the third driven tick of WRITE0 is the last. -/
theorem test_write0_ends_drive :
    let t := after { toy [calm] with owPhase := .drive, owOp := .write0, owPrim := .write0, owCnt := 2, owLmask := 0x05#8 }
    t.owPhase = .release ∧ t.owCnt = 0 ∧ t.out.owOe = 0x05#8 := by decide

/-- V-OW-12, tick 4: WRITE1 is over after three released ticks and the block is idle. -/
theorem test_write1_ends :
    let t := after { toy [calm] with owPhase := .release, owOp := .write1, owPrim := .write1, owCnt := 2 }
    t.owPhase = .idle ∧ t.owCnt = 0 ∧ t.owBitn = 0#4 := by decide

/-- V-OW-14: with a sample time of 2 the sample and the end of READBIT fall in one tick; OW_DATA is untouched. -/
theorem test_readbit_samples_in_last_tick :
    let t := after { toy [calm] with
      params := ⟨0x00#8, .anyHigh, ⟨⟨4, 3, 1, 1⟩, ⟨4, 1, 3, 3⟩, 1, 2, 2⟩, by decide⟩
      owPhase := .release, owOp := .readbit, owPrim := .read, owCnt := 2, owLmask := 0x01#8 }
    t.owRdbit = true ∧ t.owPhase = .idle ∧ t.owData = 0x00#8 := by decide

/-- 43_onewire_bytes.md R170: the first primitive is chosen from bit 0 of 0xCC, and after two slots the third is
WRITE1. -/
theorem test_sendbyte_slots :
    (after { toy [writing 0x80#8 0x05#8] with owData := 0xCC#8 }).owPrim = .write0 ∧
    (after { toy [calm] with owPhase := .gap, owOp := .sendbyte, owCnt := 1, owBitn := 2#4, owData := 0xCC#8 }).owPrim =
      .write1 := by decide

/-- Program P2, slot 0 of the receive: 0xCC with a 0 sampled becomes 0x66, and the eighth slot ends the command. -/
theorem test_recvbyte_shifts :
    (after { running .release 1 [{ calm with owIn := 0xFE#8 }] with owData := 0xCC#8 }).owData = 0x66#8 ∧
    (after { running .release 2 [calm] with owBitn := 7#4 }).owPhase = .idle ∧
    (after { running .release 2 [calm] with owBitn := 6#4 }).owPhase = .gap := by decide

/-- V-OW-16: a mask written while busy is dropped, and the latched mask drives. -/
theorem test_setmask :
    (after (toy [writing 0x81#8 0x05#8])).owMask = 0x05#8 ∧
    (after (running .drive 0 [writing 0x81#8 0xF0#8])).owMask = 0x01#8 := by decide

theorem test_setdata :
    (after (toy [writing 0x82#8 0xCC#8])).owData = 0xCC#8 ∧
    (after (running .gap 0 [writing 0x82#8 0xCC#8])).owData = 0x00#8 := by decide

/-- 95_test_vectors.md 2.1, the table of TP_CTRL writes, its row (1,0). -/
theorem test_control :
    let s := { toy [] with inReady := true }
    let flags := fun d => ((after (s.placeInput (writing 0x85#8 d))).inReady, (after (s.placeInput (writing 0x85#8 d))).rxEn)
    flags 0x01#8 = (false, false) ∧ flags 0x02#8 = (true, true) ∧ flags 0x03#8 = (false, true) ∧
    flags 0xFC#8 = (true, false) := by
  decide

/-- V-TX-5b: the completing push loads the first byte of the line. -/
theorem test_push_completes :
    let t := after { toy [writing 0x86#8 0x0A#8] with outBuf := [(0, 0x61#8), (1, 0x62#8)], outCur := 2#7 }
    t.out.txWr = true ∧ t.out.txData = 0x61#8 ∧ t.outCur = 0#7 ∧ t.txEn = true := by decide

/-- V-TX-10: the 127th byte is stored at index 126 and a terminator forced at index 127. -/
theorem test_push_truncates :
    let t := after { toy [writing 0x86#8 0x77#8] with outBuf := [(0, 0x62#8)], outCur := 126#7 }
    t.outBuf = [(0, 0x62#8), (126, 0x77#8), (127, 0x0A#8)] ∧ t.txEn = true ∧ t.out.txData = 0x62#8 := by decide

/-- 70_reset_and_hazards.md R258 and 41_transport_transmit.md R124: a Write that continues a partial line of 125 bytes stops
at the push that fills index 126. -/
theorem test_write_continues_line :
    writeLine { toy [] with outCur := 125#7 } [0x61#8, 0x62#8, 0x63#8, 0x0A#8] = [.tpPush 0x61#8, .tpPush 0x62#8] := by decide

/-- 41_transport_transmit.md R121, R124, 30_encoding.md R88: while a line is being sent a Write pushes on, to be dropped, wherever
the send position is, and stops after the first terminator. -/
theorem test_write_while_sending :
    let s := { toy [] with outCur := 127#7, txEn := true }
    writeLine s [0x61#8, 0x62#8] = [.tpPush 0x61#8, .tpPush 0x62#8] ∧
    writeLine s [0x61#8, 0x0A#8, 0x62#8] = [.tpPush 0x61#8, .tpPush 0x0A#8] := by decide

/-- 40_transport_receive.md R105: a byte of the buffer, whatever the state; the flag stays. -/
theorem test_rdbuf :
    let t := after { toy [reading 0x01#8] with inBuf := [(0, 0x0A#8), (1, 0x00#8)], inReady := true }
    t.out.hRdata = 0x00#8 ∧ t.inReady = true := by decide

/-- V-OW-20: OW.GETCMD while OW.RESET runs. -/
theorem test_getcmd : (after { running .drive 0 [reading 0x80#8] with owOp := .reset }).out.hRdata = 0x01#8 := by decide

theorem test_getmask_and_getdata :
    (after { toy [reading 0x81#8] with owMask := 0x05#8, owLmask := 0x0F#8 }).out.hRdata = 0x05#8 ∧
    (after { toy [reading 0x82#8] with owData := 0x5A#8 }).out.hRdata = 0x5A#8 := by decide

/-- V-HA-6: GAP, BITN 3, RDBIT 1, PRESENT 1 read as 0x3D. -/
theorem test_getstat :
    (after { running .gap 0 [reading 0x83#8] with owBitn := 3#4, owRdbit := true, owPresent := true }).out.hRdata = 0x3D#8 := by
  decide

/-- V-HA-9: all three transport flags. -/
theorem test_tp_getstat :
    (after { toy [reading 0x84#8] with inReady := true, rxEn := true, txEn := true }).out.hRdata = 0x07#8 := by decide

/-- V-RX-7: the host access is performed and the offered byte is not taken. -/
theorem test_getincur_before_receive :
    let t := after { toy [{ reading 0x87#8 with rxValid := true, rxData := 0x55#8 }] with inCur := 2#7, rxEn := true }
    t.out.hRdata = 0x02#8 ∧ t.inCur = 2#7 ∧ t.out.rxReady = false := by decide

theorem test_getoutcur : (after { toy [reading 0x88#8] with outCur := 127#7, txEn := true }).out.hRdata = 0x7F#8 := by decide

/-- V-RX-2: a terminator as the first byte is a line. -/
theorem test_receive_empty_line :
    let t := after { toy [offering 0x0A#8] with rxEn := true }
    t.inBuf = [(0, 0x0A#8), (1, 0x00#8)] ∧ t.inCur = 0#7 ∧ t.inReady = true ∧ t.rxEn = false := by decide

/-- V-RX-11 and V-RX-10: the 127th byte ends a line; a terminator as the 126th leaves index 127 alone. -/
theorem test_receive_truncates :
    (after { toy [offering 0x58#8] with rxEn := true, inCur := 126#7 }).inBuf = [(126, 0x58#8), (127, 0x00#8)] ∧
    (after { toy [offering 0x0A#8] with rxEn := true, inCur := 125#7 }).inBuf = [(125, 0x0A#8), (126, 0x00#8)] := by decide

/-- V-TX-6: the next byte of the line is loaded. -/
theorem test_txdone_sends_next :
    let t := after { toy [{ reporting with rxValid := true }] with
      outBuf := [(0, 0x61#8), (1, 0x62#8), (2, 0x0A#8)], txEn := true }
    t.out.txWr = true ∧ t.out.txData = 0x62#8 ∧ t.outCur = 1#7 ∧ t.txEn = true := by decide

/-- V-TX-8: the end of a line sets RX_EN although a line is unread. -/
theorem test_txdone_ends_line :
    let t := after { toy [reporting] with outBuf := [(0, 0x0A#8)], txEn := true, inReady := true }
    t.txEn = false ∧ t.rxEn = true ∧ t.inReady = true ∧ t.out.txWr = false := by decide

/-- 44_host_access.md R199: `write 0x84 <- 0xFF` changes nothing; `read 0xC0 -> 0x00`. -/
theorem test_reserved :
    (after (toy [writing 0x84#8 0xFF#8])).rxEn = false ∧ (after (toy [reading 0xC0#8])).out.hRdata = 0x00#8 := by decide

/-- V-OW-3, V-OW-4, V-OW-6, V-OW-9. -/
theorem test_combine :
    rdbit .anyHigh 0xFD#8 0x03#8 = true ∧ rdbit .allHigh 0xFD#8 0x03#8 = false ∧ present 0xFD#8 0x03#8 = false ∧
    present 0xFC#8 0x03#8 = true ∧ rdbit .anyHigh 0xFF#8 0x00#8 = false ∧ rdbit .allHigh 0xFF#8 0x00#8 = true ∧
    present 0xFF#8 0x00#8 = false ∧ present 0x7F#8 0x80#8 = true := by decide

/-- 70_reset_and_hazards.md R250: reset in a tick with a host write: the write is lost. -/
theorem test_reset_tick :
    let t := after (running .drive 0 [{ writing 0x81#8 0xF0#8 with rst := true }])
    t.owMask = 0x00#8 ∧ t.owPhase = .idle ∧ t.out.owOe = 0x01#8 ∧ t.epoch = 1 := by decide

/-- The canonical form holds at reset and a list out of order does not have it (log 5). -/
theorem test_memory_wf :
    State.reset.inBuf.wf = true ∧ Memory.wf [(3, 0x00#8), (2, 0x00#8)] = false ∧ Memory.wf [(128, 0x00#8)] = false := by decide

/-- The host's interface: a table word placed at reset runs as the very next tick (log 2). -/
theorem test_with_fetch_word :
    (after (State.reset.withFetchWord 24 0x18105)).owMask = 0x05#8 ∧
    (after (State.reset.withFetchWord 16 0x13A)).inCur = 1#7 ∧
    (after (State.reset.withFetchWord 16 0x200)).rxEn = true := by decide

/-! ## Witnesses: for each statement, a state and operands that meet its hypotheses -/

/-- The tick answers a next state of which `p` holds, and it is no reset tick. -/
def Turns (s : State) (p : State → Prop) : Prop := (s.inputAt 0).rst = false ∧ ∃ t, step s = .next t ∧ p t

theorem witness_DecodeOfEncodeIsTheOperation :
    (Instr.rsvdW 0x7F#8 0xFF#8).wf = true ∧ (Instr.rsvdW 0x80#8 0x07#8).wf = true ∧ (Instr.rsvdR 0xFF#8).wf = true ∧
    (Instr.tpRdbuf 127#7).wf = true := by decide

theorem witness_DecoderIsTheOpcodeMap :
    0x1FF#10 &&& 0x300#10 = 0x100#10 ∧ 0x2FF#10 &&& 0x300#10 = 0x200#10 := by decide

theorem witness_DecodedOperationsAreWellFormed :
    decode (.host 0x1FFFF#17) = .instr (.rsvdW 0xFF#8 0xFF#8) ∧ decode (.event 0x100#10) = .instr (.rxEvent 0x00#8) := by decide

theorem witness_StepRunsTheDecodedOperation :
    let s := toy [writing 0x80#8 0x06#8]
    (s.inputAt 0).rst = false ∧ s.select (s.inputAt 0) = some (.host 0x18006#17) ∧
      decode (.host 0x18006#17) = .instr .owRecvbyte := by decide

/-- One state for each case of the rule: reset, host access, receive event, transmit-complete event, nothing. -/
theorem witness_TickFollowsTheStepRule :
    let open_ := { toy [] with rxEn := true, txEn := true, outBuf := [(0, 0x0A#8)] }
    ((running .drive 0 [{ calm with rst := true, hReq := true }]).inputAt 0).rst = true ∧
    ((toy [reading 0x00#8]).inputAt 0).hReq = true ∧
    ((open_.placeInput (offering 0x41#8)).inputAt 0).rxValid = true ∧ open_.rxEn = true ∧ open_.inReady = false ∧
    open_.owPhase ≠ .drive ∧ open_.owPhase ≠ .release ∧
    ((open_.placeInput reporting).inputAt 0).rxValid = false ∧ ((open_.placeInput reporting).inputAt 0).txcValid = true ∧
    open_.txEn = true ∧
    ((running .release 0 [{ offering 0x41#8 with txcValid := true }]).inputAt 0).hReq = false := by decide

theorem witness_PortsShowTheStateAtTheStartOfTheTick :
    ∃ t, step (running .drive 0 [offering 0x41#8]) = .next t := ⟨_, rfl⟩

theorem witness_ResetTickEndsInTheResetState :
    ((running .release 2 [{ calm with rst := true }]).inputAt 0).rst = true := by decide

theorem witness_ResetTickDrawsTheBuffersAnew :
    (({ toy [{ calm with rst := true }] with inBuf := [(0, 0x41#8)] } : State).inputAt 0).rst = true := by decide

/-- A state of a byte command with a line in flight and a line unread meets every invariant. -/
theorem witness_EveryTickKeepsTheInvariants :
    let s := { running .release 2 [calm] with
      owBitn := 7#4, txEn := true, outCur := 127#7, outBuf := [(127, 0x0A#8)], inCur := 126#7 }
    Inv s ∧ ∃ t, step s = .next t := by
  refine ⟨⟨by decide, by decide, fun _ => ⟨127, by decide, by decide, by decide⟩, by decide, by decide, by decide, by decide,
    by decide, fun _ _ => by decide, by decide, by decide,
    fun _ => .inr (.inr (.inr (.inl ⟨.inr rfl, rfl⟩))), by decide⟩, _, rfl⟩

theorem witness_EveryTickKeepsTheBuffersCanonical :
    let s := { toy [offering 0x58#8] with rxEn := true, inCur := 126#7, inBuf := [(0, 0x41#8), (125, 0x42#8)] }
    s.inBuf.wf = true ∧ s.outBuf.wf = true ∧ ∃ t, step s = .next t := ⟨by decide, by decide, _, rfl⟩

theorem witness_NoTickChangesTheParameters :
    ∃ t, step (running .gap 1 [writing 0x86#8 0x0A#8]) = .next t := ⟨_, rfl⟩

/-- Every change of a flag happens in some tick; the last two are a sample that changes the stored bit. -/
theorem witness_FlagsChangeOnlyByTheirTable :
    Turns { toy [offering 0x0A#8] with rxEn := true } (fun t => t.inReady = true ∧ t.rxEn = false) ∧
    Turns { toy [writing 0x85#8 0x01#8] with inReady := true } (fun t => t.inReady = false) ∧
    Turns (toy [writing 0x85#8 0x02#8]) (fun t => t.rxEn = true) ∧
    Turns { toy [reporting] with txEn := true, outBuf := [(0, 0x0A#8)] } (fun t => t.rxEn = true ∧ t.txEn = false) ∧
    Turns (toy [writing 0x86#8 0x0A#8]) (fun t => t.txEn = true) ∧
    Turns (toy [writing 0x80#8 0x01#8]) (fun t => t.owPhase ≠ .idle ∧ t.owPhase.crit = true) ∧
    Turns { running .release 2 [calm] with owBitn := 7#4 } (fun t => t.owPhase = .idle) ∧
    Turns (running .gap 1 [calm]) (fun t => t.owPhase.crit = true) ∧
    Turns (running .release 2 [calm]) (fun t => t.owPhase.crit = false) ∧
    Turns { running .release 1 [{ calm with owIn := 0x00#8 }] with owOp := .reset, owPrim := .reset }
      (fun t => t.owPresent = true) ∧
    Turns (running .release 1 [calm]) (fun t => t.owRdbit = true) :=
  ⟨⟨by decide, _, rfl, by decide⟩, ⟨by decide, _, rfl, by decide⟩, ⟨by decide, _, rfl, by decide⟩,
   ⟨by decide, _, rfl, by decide⟩, ⟨by decide, _, rfl, by decide⟩, ⟨by decide, _, rfl, by decide⟩,
   ⟨by decide, _, rfl, by decide⟩, ⟨by decide, _, rfl, by decide⟩, ⟨by decide, _, rfl, by decide⟩,
   ⟨by decide, _, rfl, by decide⟩, ⟨by decide, _, rfl, by decide⟩⟩

theorem witness_ElementsAreWrittenOnlyByTheirWriters :
    Turns { toy [offering 0x41#8] with rxEn := true } (fun t => t.inBuf ≠ [] ∧ t.inCur ≠ 0#7) ∧
    Turns (toy [writing 0x86#8 0x41#8]) (fun t => t.outBuf ≠ [] ∧ t.outCur ≠ 0#7) ∧
    Turns { toy [reporting] with txEn := true, outBuf := [(0, 0x41#8), (1, 0x0A#8)] } (fun t => t.outCur ≠ 0#7) ∧
    Turns (toy [writing 0x81#8 0x05#8]) (fun t => t.owMask ≠ 0x00#8) ∧
    Turns (toy [writing 0x82#8 0x05#8]) (fun t => t.owData ≠ 0x00#8) ∧
    Turns (running .release 1 [calm]) (fun t => t.owData ≠ 0x00#8) ∧
    Turns (toy [writing 0x80#8 0x02#8]) (fun t => t.owOp ≠ .noCommand) :=
  ⟨⟨by decide, _, rfl, by decide⟩, ⟨by decide, _, rfl, by decide⟩, ⟨by decide, _, rfl, by decide⟩,
   ⟨by decide, _, rfl, by decide⟩, ⟨by decide, _, rfl, by decide⟩, ⟨by decide, _, rfl, by decide⟩,
   ⟨by decide, _, rfl, by decide⟩⟩

theorem witness_NothingDisturbsARunningCommand :
    let s := running .release 1 []
    s.owPhase ≠ .idle ∧ (writing 0x80#8 0x01#8).owIn = (offering 0x0A#8).owIn ∧
    (∃ t, step (s.placeInput (writing 0x80#8 0x01#8)) = .next t) ∧ ∃ u, step (s.placeInput (offering 0x0A#8)) = .next u :=
  ⟨by decide, by decide, ⟨_, rfl⟩, ⟨_, rfl⟩⟩

/-! ### Transport -/

/-- Every clause at the cursor's bounds: a line's end by its terminator at index 0 and by the 127th byte at index 126,
and a line that goes on from index 125. -/
theorem witness_ReceiveEventEffect :
    let s := { toy [] with rxEn := true, inCur := 126#7 }
    s.rxEn = true ∧ s.inReady = false ∧ s.owPhase ≠ .drive ∧ s.owPhase ≠ .release ∧ s.inCur.toNat ≤ 126 ∧
    s.inCur.toNat + 1 = 127 ∧ (s.setInCur 0#7).inCur.toNat ≤ 126 ∧
    ((s.setInCur 125#7).inCur.toNat + 1 ≠ 127 ∧ (0x41#8 : Byte) ≠ 0x0A#8) := by decide

theorem witness_ReceiveEventOccursExactlyWhenReady :
    Turns { toy [offering 0x41#8] with rxEn := true } (fun t => t.out.rxReady = true) ∧
    ({ toy [] with inReady := true } : State).inReady = true ∧ (running .drive 0 []).owPhase = .drive ∧
    (reading 0x00#8).hReq = true ∧ (toy []).rxEn = false :=
  ⟨⟨by decide, _, rfl, by decide⟩, by decide, by decide, by decide, by decide⟩

theorem witness_AckArmAckarmEffect :
    (0xFD#8 : Byte).extractLsb' 0 2 = 0b01#2 ∧ (0xFE#8 : Byte).extractLsb' 0 2 = 0b10#2 ∧
    (0xFF#8 : Byte).extractLsb' 0 2 = 0b11#2 := by decide

theorem witness_ControlWriteActsByItsBits :
    (writing 0x85#8 0xFF#8).writes 0x85#8 = true ∧ (writing 0x85#8 0xFF#8).rst = false ∧
    (reading 0x85#8).hReq = true ∧ (reading 0x85#8).hWe = false ∧ (reading 0x85#8).hAddr = 0x85#8 := by decide

/-- Two ticks that leave the line open. -/
theorem witness_DeliveredBytesMakeOneLine_open :
    let s := { toy [offering 0x41#8, offering 0x42#8] with rxEn := true }
    s.inCur = 0#7 ∧ s.inReady = false ∧ NoReset 2 s ∧ NoAck 2 s ∧
    ∃ t, afterTicks 2 s = some t ∧ t.inReady = false ∧ deliveredBytes 2 s = [0x41#8, 0x42#8] :=
  ⟨by decide, by decide, by unfold NoReset; decide, by unfold NoAck; decide, _, rfl, by decide, by decide⟩

/-- One tick that ends the line with its first byte. -/
theorem witness_DeliveredBytesMakeOneLine_ended :
    let s := { toy [offering 0x0A#8] with rxEn := true }
    s.inCur = 0#7 ∧ s.inReady = false ∧ NoReset 1 s ∧ NoAck 1 s ∧
    ∃ t, afterTicks 1 s = some t ∧ t.inReady = true ∧ deliveredBytes 1 s = [0x0A#8] :=
  ⟨by decide, by decide, by unfold NoReset; decide, by unfold NoAck; decide, _, rfl, by decide, by decide⟩

theorem witness_UnreadLineIsNeverOverwritten :
    let s := { toy [offering 0x41#8, offering 0x42#8] with inReady := true, rxEn := true }
    s.inReady = true ∧ NoReset 2 s ∧ NoAck 2 s :=
  ⟨by decide, by unfold NoReset; decide, by unfold NoAck; decide⟩

/-- A line of one byte and its terminator. -/
theorem witness_ReadLineReturnsTheLine :
    let s := { toy [] with inReady := true, inBuf := [(0, 0x41#8), (1, 0x0A#8)] }
    s.inReady = true ∧ (∀ k < 1, s.inByte k ≠ 0x0A#8) ∧ s.inByte 1 = 0x0A#8 := by decide

set_option maxRecDepth 4096 in
/-- A truncated line of 127 bytes 0x61. -/
theorem witness_ReadLineReturnsTheLine_truncated :
    let s := { toy [] with inReady := true, inBuf := (List.range 127).map (fun k => (k, 0x61#8)) }
    s.inReady = true ∧ ∀ k < 126, s.inByte k ≠ 0x0A#8 := by decide

/-- Every clause at the cursor's bounds. -/
theorem witness_PushEffect :
    let s := { toy [] with outCur := 126#7 }
    s.txEn = false ∧ s.outCur.toNat ≤ 126 ∧ s.outCur.toNat + 1 = 127 ∧ (0x77#8 : Byte) ≠ 0x0A#8 ∧
    (s.setOutCur 125#7).outCur.toNat + 1 ≠ 127 ∧ (s.setOutCur 0#7).outCur.toNat ≤ 126 ∧
    ({ s with txEn := true } : State).txEn = true := by decide

theorem witness_PushWhileSendingIsDropped : ({ toy [] with txEn := true } : State).txEn = true := by decide

/-- A byte before the terminator, the terminator, and the cursor at the end of the buffer. -/
theorem witness_TransmitCompleteEffect :
    let s := { toy [] with txEn := true, outBuf := [(0, 0x41#8), (1, 0x0A#8)] }
    s.txEn = true ∧ s.owPhase ≠ .drive ∧ s.owPhase ≠ .release ∧
    (s.outByte s.outCur.toNat ≠ 0x0A#8 ∧ s.outCur.toNat ≠ 127) ∧
    (s.setOutCur 1#7).outByte (s.setOutCur 1#7).outCur.toNat = 0x0A#8 ∧ (s.setOutCur 127#7).outCur.toNat = 127 := by decide

theorem witness_TransmitCompleteOccursExactlyWhenReady :
    Turns { toy [reporting] with txEn := true, outBuf := [(0, 0x0A#8)] } (fun t => t.out.txcReady = true) ∧
    (toy []).txEn = false ∧ (running .release 0 []).owPhase = .release ∧
    (let s := { toy [offering 0x41#8] with rxEn := true }
     (s.inputAt 0).rxValid = true ∧ s.rxEn = true ∧ s.inReady = false) :=
  ⟨⟨by decide, _, rfl, by decide⟩, by decide, by decide, by decide⟩

/-- Every clause: not enabled, a line unread, a critical section. -/
theorem witness_EventsThatMayNotOccurChangeNothing :
    (toy []).rxEn = false ∧ (toy []).txEn = false ∧ ({ toy [] with rxEn := true, inReady := true } : State).inReady = true ∧
    (running .drive 0 []).owPhase = .drive ∧ (running .release 0 []).owPhase = .release := by decide

/-- A state to write from; a line whose terminator is its 127th byte, one with none among 127, and one of 126 without. -/
theorem witness_WriteLineLoadsExactlyTheLine :
    (toy []).outCur = 0#7 ∧ (toy []).txEn = false ∧ (toy []).owPhase ≠ .drive ∧ (toy []).owPhase ≠ .release ∧
    0x0A#8 ∈ (List.replicate 126 (0x61#8 : Byte) ++ [0x0A#8, 0x62#8]).take 127 ∧
    0x0A#8 ∉ (List.replicate 127 (0x61#8 : Byte)).take 127 ∧ 127 ≤ (List.replicate 127 (0x61#8 : Byte)).length ∧
    0x0A#8 ∉ (List.replicate 126 (0x61#8 : Byte)).take 127 ∧ (List.replicate 126 (0x61#8 : Byte)).length < 127 := by
  refine ⟨by decide, by decide, by decide, by decide, by simp, ?_, by simp, ?_, by simp⟩ <;> simp

/-- The cursor at its bounds: an empty buffer, and one with room for one byte more; and a push of a line before its last. -/
theorem witness_WriteStopsAtThePushThatStarts :
    (toy []).txEn = false ∧ (toy []).outCur.toNat ≤ 126 ∧ (toy []).outCur.toNat + (pushedBytes 127 []).length ≠ 127 ∧
    (let s := { toy [] with outCur := 126#7 }
     s.txEn = false ∧ s.outCur.toNat ≤ 126 ∧
     pushedBytes (127 - s.outCur.toNat) [0x61#8, 0x62#8] = [0x61#8]) ∧
    pushedBytes 127 [0x61#8, 0x0A#8, 0x62#8] = [0x61#8, 0x0A#8] := by decide

/-- A line being sent, its send position at both bounds; and a slow Write of a byte to a state that sends nothing. -/
theorem witness_WriteWhileSendingAndWriteAtAnyPace :
    (let s := { toy [] with txEn := true, outCur := 127#7 }
     s.txEn = true ∧ droppedBytes [0x61#8] = [0x61#8] ∧ droppedBytes [0x0A#8, 0x61#8] = [0x0A#8]) ∧
    ({ toy [] with txEn := true } : State).txEn = true ∧
    (let s := toy [reporting, offering 0x62#8, calm]
     s.txEn = false ∧ ((writePaced [(2, 0x61#8)] s).map State.outCur) = some 1#7) := by decide

theorem witness_OneReportForEachLoadedByte :
    let s := toy [writing 0x86#8 0x0A#8, reporting]
    s.txEn = false ∧ NoReset 2 s ∧ ∃ t, afterTicks 2 s = some t ∧ t.txEn = false ∧ loadedBytes 2 s = [0x0A#8] :=
  ⟨by decide, by unfold NoReset; decide, _, rfl, by decide, by decide⟩

/-- A line of one terminator written and reported; nothing is reported before, between or after. -/
theorem witness_NoReportIsRaisedWhileNotSending :
    let s := toy [writing 0x86#8 0x0A#8, reporting, calm]
    s.txEn = false ∧ XcvrReportsHonestly 0 3 s ∧ NoReset 2 s ∧ ∃ t, afterTicks 2 s = some t ∧ t.txEn = false := by
  refine ⟨by decide, ?_, by unfold NoReset; decide, _, rfl, by decide⟩
  unfold XcvrReportsHonestly
  decide

/-- A line of two bytes, its second the terminator; both clauses. -/
theorem witness_LineInFlightDrainsInOrder :
    let s := { toy [reporting, reporting] with txEn := true, outBuf := [(0, 0x41#8), (1, 0x0A#8)] }
    s.txEn = true ∧ s.outCur = 0#7 ∧ s.outByte 1 = 0x0A#8 ∧ (∀ k < 1, s.outByte k ≠ 0x0A#8) ∧ NoReset 2 s ∧
    reportsTaken 1 s = 1 ∧ reportsTaken 2 s = 2 ∧ (∃ t, afterTicks 1 s = some t) ∧ ∃ u, afterTicks 2 s = some u :=
  ⟨by decide, by decide, by decide, by decide, by unfold NoReset; decide, by decide, by decide, ⟨_, rfl⟩, ⟨_, rfl⟩⟩

/-! ### The one-wire engine -/

theorem witness_CriticalSectionSuspendsBothEvents :
    (running .drive 0 [offering 0x41#8]).owPhase = .drive ∧ (running .release 3 [reading 0x84#8]).owPhase = .release ∧
    ((running .release 3 [reading 0x84#8]).inputAt 0).hAddr = 0x84#8 ∧ (running .gap 0 [reporting]).owPhase = .gap := by decide

theorem witness_CommandsAreAcceptedWhenIdle :
    (toy []).owPhase = .idle ∧ (running .gap 0 []).owPhase ≠ .idle ∧
    Instr.owSendbyte ∈ [Instr.owReset, .owWrite0, .owWrite1, .owReadbit, .owSendbyte, .owRecvbyte] := by decide

/-- Both clauses at their bounds: opcode 0x06 while idle, opcodes 0x00 and 0x07 while idle, and opcode 0x01 while
busy. -/
theorem witness_CommandWriteIsAcceptedOrIgnored :
    (writing 0x80#8 0x06#8).writes 0x80#8 = true ∧ (writing 0x80#8 0x06#8).hWdata = OwOp.recvbyte.code.setWidth 8 ∧
    (toy []).owPhase = .idle ∧ (running .gap 0 []).owPhase ≠ .idle ∧
    (∀ op : OwOp, op ≠ .noCommand → (writing 0x80#8 0x07#8).hWdata ≠ op.code.setWidth 8) ∧
    (∀ op : OwOp, op ≠ .noCommand → (writing 0x80#8 0x00#8).hWdata ≠ op.code.setWidth 8) := by
  refine ⟨by decide, by decide, by decide, by decide, ?_, ?_⟩ <;> intro op <;> cases op <;> decide

theorem witness_SequencerTickInIdleAndDrive :
    ((toy [calm]).inputAt 0).rst = false ∧ (toy [calm]).owPhase = .idle ∧ (∀ op, ¬ calm.commands op) ∧
    (running .drive 0 [calm]).owCnt + 1 = toyParams.tDrv .read ∧
    (let s := { running .drive 0 [calm] with owPrim := .reset }
     s.owPhase = .drive ∧ s.owCnt + 1 ≠ s.params.tDrv s.owPrim) :=
  ⟨by decide, by decide, fun op h => absurd h.1 (by decide), by decide, by decide⟩

theorem witness_SequencerTickInRelease :
    ((running .release 1 [calm]).inputAt 0).rst = false ∧ (running .release 1 [calm]).owPhase = .release ∧
    (running .release 1 [calm]).owCnt = toyParams.timing.sampleRead ∧
    (running .release 1 [calm]).owCnt + 1 ≠ toyParams.tRel .read ∧
    (running .release 2 [calm]).owCnt + 1 = toyParams.tRel .read := by decide

theorem witness_SequencerTickInGap :
    ((running .gap 1 [calm]).inputAt 0).rst = false ∧ (running .gap 1 [calm]).owPhase = .gap ∧
    (running .gap 1 [calm]).owOp = .recvbyte ∧ (running .gap 1 [calm]).owCnt + 1 = toyParams.tGap ∧
    (running .gap 0 [calm]).owCnt + 1 ≠ toyParams.tGap := by decide

/-- The first driven tick, the first released tick and the end of a READ primitive. -/
theorem witness_WaveformOfOnePrimitive :
    let s := running .drive 0 [calm, calm, calm, calm]
    s.owPhase = .drive ∧ s.owCnt = 0 ∧ NoReset 4 s ∧ 0 < s.params.tDrv s.owPrim ∧ s.params.tDrv s.owPrim ≤ 1 ∧
    1 < s.params.tDrv s.owPrim + s.params.tRel s.owPrim ∧ 4 = s.params.tDrv s.owPrim + s.params.tRel s.owPrim :=
  ⟨by decide, by decide, by unfold NoReset; decide, by decide, by decide, by decide, by decide⟩

/-- The whole run of OW.RESET; its sample tick lies inside. -/
theorem witness_ResetCommandRun :
    let s := toy (writing 0x80#8 0x01#8 :: List.replicate 8 calm)
    s.owPhase = .idle ∧ (s.inputAt 0).commands .reset ∧ 8 = s.params.tDrv .reset + s.params.tRel .reset ∧ NoReset 9 s ∧
    s.params.tDrv .reset + s.params.timing.sampleReset < 8 :=
  ⟨by decide, ⟨by decide, by decide⟩, by decide, by unfold NoReset; decide, by decide⟩

theorem witness_WriteCommandRun :
    let s := toy (writing 0x80#8 0x02#8 :: List.replicate 4 calm)
    let u := toy (writing 0x80#8 0x03#8 :: List.replicate 4 calm)
    s.owPhase = .idle ∧ (s.inputAt 0).commands .write0 ∧ 4 = s.params.tDrv .write0 + s.params.tRel .write0 ∧ NoReset 5 s ∧
    u.owPhase = .idle ∧ (u.inputAt 0).commands .write1 ∧ 4 = u.params.tDrv .write1 + u.params.tRel .write1 ∧ NoReset 5 u :=
  ⟨by decide, ⟨by decide, by decide⟩, by decide, by unfold NoReset; decide, by decide, ⟨by decide, by decide⟩, by decide,
   by unfold NoReset; decide⟩

theorem witness_ReadbitCommandRun :
    let s := toy (writing 0x80#8 0x04#8 :: List.replicate 4 calm)
    s.owPhase = .idle ∧ (s.inputAt 0).commands .readbit ∧ 4 = s.params.tDrv .read + s.params.tRel .read ∧ NoReset 5 s ∧
    s.params.tDrv .read + s.params.timing.sampleRead < 4 :=
  ⟨by decide, ⟨by decide, by decide⟩, by decide, by unfold NoReset; decide, by decide⟩

/-- The end of the eighth slot and the last gap tick of the first. -/
theorem witness_SendbyteCommandRun :
    let s := { toy (writing 0x80#8 0x05#8 :: List.replicate 46 calm) with owData := 0xA5#8 }
    let slot : Nat → Prim := fun j => if s.owData.getLsbD j then .write1 else .write0
    s.owPhase = .idle ∧ (s.inputAt 0).commands .sendbyte ∧ slotStart s.params slot 7 = 42 ∧
    4 < s.params.tDrv (slot 7) + s.params.tRel (slot 7) + s.params.tGap ∧
    4 ≤ s.params.tDrv (slot 7) + s.params.tRel (slot 7) ∧ NoReset 47 s ∧
    5 < s.params.tDrv (slot 0) + s.params.tRel (slot 0) + s.params.tGap :=
  ⟨by decide, ⟨by decide, by decide⟩, by decide, by decide, by decide, by unfold NoReset; decide, by decide⟩

/-- The end of the eighth slot: eight samples taken; and a tick of the first slot before its sample. -/
theorem witness_RecvbyteCommandRun :
    let s := toy (writing 0x80#8 0x06#8 :: List.replicate 46 calm)
    s.owPhase = .idle ∧ (s.inputAt 0).commands .recvbyte ∧
    4 < s.params.tDrv .read + s.params.tRel .read + s.params.tGap ∧ 4 ≤ s.params.tDrv .read + s.params.tRel .read ∧
    8 = (if 4 ≤ s.params.tDrv .read + s.params.timing.sampleRead then 7 else 8) ∧
    0 = (if 2 ≤ s.params.tDrv .read + s.params.timing.sampleRead then 0 else 1) ∧
    47 = 7 * (s.params.tDrv .read + s.params.tRel .read + s.params.tGap) + 4 + 1 ∧ NoReset 47 s :=
  ⟨by decide, ⟨by decide, by decide⟩, by decide, by decide, by decide, by decide, by decide, by unfold NoReset; decide⟩

theorem witness_RecvbyteCollectsTheSampledBits :
    let s := toy (writing 0x80#8 0x06#8 :: List.replicate 46 calm)
    s.owPhase = .idle ∧ (s.inputAt 0).commands .recvbyte ∧
    47 = 8 * (s.params.tDrv .read + s.params.tRel .read) + 7 * s.params.tGap + 1 ∧ NoReset 47 s :=
  ⟨by decide, ⟨by decide, by decide⟩, by decide, by unfold NoReset; decide⟩

theorem witness_PresenceDetectCompletesWithTheSample :
    (toy []).owPhase = .idle ∧ toyParams.tDrv .reset + toyParams.tRel .reset < 9 := by decide

theorem witness_SendBytePseudoOperationCompletes :
    (toy []).owPhase = .idle ∧
    8 * max (toyParams.tDrv .write0 + toyParams.tRel .write0) (toyParams.tDrv .write1 + toyParams.tRel .write1) +
      7 * toyParams.tGap < 47 := by decide

theorem witness_ReceiveBytePseudoOperationReturnsTheBits :
    (toy []).owPhase = .idle ∧ 8 * (toyParams.tDrv .read + toyParams.tRel .read) + 7 * toyParams.tGap < 47 := by decide

/-- One targeted line, lines that agree, lines that disagree, and levels that differ outside the mask. -/
theorem witness_ReadBitOfTheTargetedLines :
    (7 < 8) ∧ ((0x03#8 : Byte) ≠ 0#8 ∧ ∀ k < 8, (0x03#8 : Byte).getLsbD k = true → (0xFF#8 : Byte).getLsbD k = true) ∧
    ((0x03#8 : Byte).getLsbD 0 = true ∧ (0xFD#8 : Byte).getLsbD 0 = true ∧
      (0x03#8 : Byte).getLsbD 1 = true ∧ (0xFD#8 : Byte).getLsbD 1 = false) ∧
    (∀ k < 8, (0x01#8 : Byte).getLsbD k = true → (0x01#8 : Byte).getLsbD k = (0xFF#8 : Byte).getLsbD k) := by decide

/-! ### The host port -/

theorem witness_MaskAndDataWrites : (toy []).owPhase = .idle ∧ (running .gap 0 []).owPhase ≠ .idle := by decide

/-- The bounds of every address range. -/
theorem witness_HostReadReturnsItsRegister :
    (reading 0x7F#8).rst = false ∧ (reading 0x7F#8).hReq = true ∧ (reading 0x7F#8).hWe = false ∧
    (reading 0x7F#8).hAddr < 0x80#8 ∧ (reading 0x00#8).hAddr < 0x80#8 ∧ (reading 0x88#8).hAddr = 0x88#8 ∧
    0x89#8 ≤ (reading 0x89#8).hAddr ∧ 0x89#8 ≤ (reading 0xFF#8).hAddr := by decide

theorem witness_HostWriteActsOnItsRegister :
    (writing 0x81#8 0xFF#8).rst = false ∧ (writing 0x81#8 0xFF#8).hReq = true ∧ (writing 0x81#8 0xFF#8).hWe = true ∧
    (toy []).owPhase = .idle ∧ (running .drive 0 []).owPhase ≠ .idle ∧ (writing 0x7F#8 0xFF#8).hAddr < 0x80#8 ∧
    0x89#8 ≤ (writing 0x89#8 0xFF#8).hAddr ∧ (writing 0x86#8 0x0A#8).hAddr = 0x86#8 ∧ (toy []).txEn = false ∧
    ({ toy [] with txEn := true } : State).txEn = true := by decide

end Sys2Proof.Tests
end

section
/-! SUPPORT. One tick of the block (00_scope.md R7, 60_exceptions.md R224): what a word names is well-formed, every
operation completes, and which operation a tick performs in each case of the step rule. -/

namespace Sys2Proof

/-! ## What the decoder reads is well-formed -/

/-- Bit 7 of a read address tells the input buffer's window from the registers (20_memory.md R61). -/
theorem getLsbD_seven_eq_false_iff (addr : Byte) : addr.getLsbD 7 = false ↔ addr < 0x80#8 := by
  have hmsb : addr.getLsbD 7 = decide (2 ^ 7 ≤ addr.toNat) :=
    addr.msb_eq_getLsbD_last.symm.trans addr.msb_eq_decide
  rw [hmsb, decide_eq_false_iff_not, BitVec.lt_def]
  simp

/-- An undefined opcode at OW_CMD is on the reserved list (30_encoding.md R83, R86). -/
theorem decodeCommand_wf (data : Byte) : (decodeCommand data).wf = true := by
  unfold decodeCommand
  split_ifs
  case neg =>
    have hundefined : data = 0x00#8 ∨ 0x07#8 ≤ data := by bv_omega
    simpa [Instr.wf, reservedWrite] using hundefined
  all_goals rfl

/-- TP_CTRL with neither bit set is on the reserved list (30_encoding.md R84, R86). -/
theorem decodeControl_wf (data : Byte) : (decodeControl data).wf = true := by
  unfold decodeControl
  split_ifs
  case neg =>
    have hneither : data.extractLsb' 0 2 = 0b00#2 := by bv_omega
    simp [Instr.wf, reservedWrite, hneither]
  all_goals rfl

/-- A write to any address but the five writable ones is on the reserved list (30_encoding.md R86). -/
theorem decodeWrite_wf (addr data : Byte) : (decodeWrite addr data).wf = true := by
  unfold decodeWrite
  split_ifs
  · exact decodeCommand_wf data
  · rfl
  · rfl
  · exact decodeControl_wf data
  · rfl
  · have hunwritable : addr < 0x80#8 ∨ addr = 0x83#8 ∨ addr = 0x84#8 ∨ addr = 0x87#8 ∨ addr = 0x88#8 ∨ 0x89#8 ≤ addr := by
      bv_omega
    simp only [Instr.wf, reservedWrite, Bool.or_eq_true, decide_eq_true_eq, beq_iff_eq]
    tauto

/-- A read of any address but the readable ones is on the reserved list (30_encoding.md R86). -/
theorem decodeRead_wf (addr : Byte) : (decodeRead addr).wf = true := by
  unfold decodeRead
  split_ifs with hwindow
  case neg =>
    rw [getLsbD_seven_eq_false_iff] at hwindow
    have hunreadable : addr = 0x85#8 ∨ addr = 0x86#8 ∨ 0x89#8 ≤ addr := by bv_omega
    simpa [Instr.wf, reservedRead, or_assoc] using hunreadable
  all_goals rfl

theorem decodeHost_wf (w : HostWord) : (decodeHost w).wf = true := by
  unfold decodeHost
  split
  · exact decodeWrite_wf _ _
  · exact decodeRead_wf _

/-- The two event operations carry no check, and no other event word names one (30_encoding.md R81). -/
theorem decodeEvent_wf {w : EventWord} {i : Instr} (h : decodeEvent w = .instr i) : i.wf = true := by
  unfold decodeEvent at h
  split_ifs at h <;> cases h <;> rfl

/-- What a word names is an operation some word names (30_encoding.md R85, R86). -/
theorem decode_wf {w : OpWord} {i : Instr} (h : decode w = .instr i) : i.wf = true := by
  cases w with
  | host w => cases h; exact decodeHost_wf w
  | event w => exact decodeEvent_wf h

theorem decodeHost_hostWord (we : Bool) (addr data : Byte) :
    decodeHost (hostWord we addr data) = if we then decodeWrite addr data else decodeRead addr := by
  simp [decodeHost]

namespace Machine

/-! ## Where an event may occur -/

/-- The state's part of 40_transport_receive.md R101. -/
theorem State.rxOpen_iff (s : State) :
    s.rxOpen = true ↔ s.rxEn = true ∧ s.inReady = false ∧ s.owPhase ≠ .drive ∧ s.owPhase ≠ .release := by
  have hcrit := s.owPhase.crit_iff
  simp only [State.rxOpen, Bool.and_eq_true, Bool.not_eq_true', ← Bool.not_eq_true, hcrit]
  tauto

/-- The state's part of 41_transport_transmit.md R123. -/
theorem State.txOpen_iff (s : State) :
    s.txOpen = true ↔ s.txEn = true ∧ s.owPhase ≠ .drive ∧ s.owPhase ≠ .release := by
  have hcrit := s.owPhase.crit_iff
  simp only [State.txOpen, Bool.and_eq_true, Bool.not_eq_true', ← Bool.not_eq_true, hcrit]
  tauto

/-! ## The operation a tick performs -/

theorem State.action_of_access {s : State} {i : Input} (hh : i.hReq = true) :
    s.action i = some (decodeHost (hostWord i.hWe i.hAddr i.hWdata)) := by
  simp [State.action, hh, decodeHost_hostWord]

theorem State.action_of_offer {s : State} {i : Input} (hh : i.hReq = false) (hv : i.rxValid = true)
    (ho : s.rxOpen = true) : s.action i = some (.rxEvent i.rxData) := by
  simp [State.action, hh, hv, ho]

theorem State.action_of_report {s : State} {i : Input} (hh : i.hReq = false) (hr : ¬ (i.rxValid = true ∧ s.rxOpen = true))
    (hv : i.txcValid = true) (ho : s.txOpen = true) : s.action i = some .txDone := by
  simp [State.action, hh, hr, hv, ho]

theorem State.action_of_nothing {s : State} {i : Input} (hh : i.hReq = false)
    (hr : ¬ (i.rxValid = true ∧ s.rxOpen = true)) (hx : ¬ (i.txcValid = true ∧ s.txOpen = true)) : s.action i = none := by
  simp [State.action, hh, hr, hx]

/-- The operation a tick performs is the one its selected word names. -/
theorem State.action_of_select {s : State} {i : Input} {w : OpWord} {op : Instr} (hw : s.select i = some w)
    (hd : decode w = .instr op) : s.action i = some op := by
  unfold State.select at hw
  split_ifs at hw with hh hr hx <;> cases hw
  · cases hd
    exact State.action_of_access hh
  · rw [decode_receiveWord] at hd
    cases hd
    simp [State.action, hh, hr]
  · rw [decode_reportWord] at hd
    cases hd
    simp [State.action, hh, hr, hx]

/-! ## Every operation completes -/

/-- 60_exceptions.md R220: every operation answers a next state, in every state. -/
theorem exec_completes (i : Instr) (s : State) : ∃ t, exec i s = .next t := by
  cases i with
  | owSetmask m => simp only [exec, execOwSetmask]; split <;> exact ⟨_, rfl⟩
  | owSetdata d => simp only [exec, execOwSetdata]; split <;> exact ⟨_, rfl⟩
  | _ => exact ⟨_, rfl⟩

/-- A tick without reset that performs an operation: the operation completes, and the sequencer ticks on the phase the tick
started with (00_scope.md R7). -/
theorem step_completes_action {s : State} {op : Instr} (hrst : (s.inputAt 0).rst = false)
    (ha : s.action (s.inputAt 0) = some op) :
    ∃ t, exec op (s.begin (s.inputAt 0)) = .next t ∧ step s = .next (t.owTick s.owPhase (s.inputAt 0).owIn) := by
  obtain ⟨t, ht⟩ := exec_completes op (s.begin (s.inputAt 0))
  exact ⟨t, ht, by rw [step_of_action hrst ha, ht]⟩

/-! ## The step rule -/

/-- Settles O5: the word the tick selects names the tick's operation, and what a word names is well-formed. -/
theorem stepRunsTheDecodedOperation : Obligations.StepRunsTheDecodedOperation := by
  intro s w i hrst hw hd
  exact ⟨decode_wf hd, step_of_action hrst (State.action_of_select hw hd)⟩

/-- Settles O6, along the order of 60_exceptions.md R224: in each case the tick's operation is known, and it completes. -/
theorem tickFollowsTheStepRule : Obligations.TickFollowsTheStepRule := by
  rintro s i rfl
  refine ⟨step_of_rst, fun hrst hh => step_completes_action hrst (State.action_of_access hh), fun hrst hh => ⟨?_, ?_⟩⟩
  · intro hv hen hready hdrive hrelease
    have hopen : s.rxOpen = true := s.rxOpen_iff.mpr ⟨hen, hready, hdrive, hrelease⟩
    exact step_completes_action hrst (State.action_of_offer hh hv hopen)
  · intro hclosed
    have hr : ¬ ((s.inputAt 0).rxValid = true ∧ s.rxOpen = true) := by
      rintro ⟨hv, hopen⟩
      obtain ⟨hen, hready, hdrive, hrelease⟩ := s.rxOpen_iff.mp hopen
      simp [hv, hen, hready, hdrive, hrelease] at hclosed
    refine ⟨?_, ?_⟩
    · intro hv hen hdrive hrelease
      have hopen : s.txOpen = true := s.txOpen_iff.mpr ⟨hen, hdrive, hrelease⟩
      exact step_completes_action hrst (State.action_of_report hh hr hv hopen)
    · intro hclosed
      have hx : ¬ ((s.inputAt 0).txcValid = true ∧ s.txOpen = true) := by
        rintro ⟨hv, hopen⟩
        obtain ⟨hen, hdrive, hrelease⟩ := s.txOpen_iff.mp hopen
        simp [hv, hen, hdrive, hrelease] at hclosed
      exact step_of_none hrst (State.action_of_nothing hh hr hx)

end Machine

end Sys2Proof
end

section
/-! SUPPORT. What a tick does to each element (10_state.md R20): the fields a sequencer tick leaves, the cases of the shared
transport operations, and, said once, what the action of a tick without reset can be, told from the tick's inputs. -/

namespace Sys2Proof.Machine

/-! ## What a sequencer tick leaves and writes -/

/-- The elements no sequencer tick writes (10_state.md R20), the ports and the model's own fields. -/
@[simp] theorem State.owTick_keeps (s : State) (ph : Phase) (v : Byte) :
    (s.owTick ph v).inBuf = s.inBuf ∧ (s.owTick ph v).inCur = s.inCur ∧ (s.owTick ph v).inReady = s.inReady ∧
    (s.owTick ph v).rxEn = s.rxEn ∧ (s.owTick ph v).outBuf = s.outBuf ∧ (s.owTick ph v).outCur = s.outCur ∧
    (s.owTick ph v).txEn = s.txEn ∧ (s.owTick ph v).owMask = s.owMask ∧ (s.owTick ph v).owOp = s.owOp ∧
    (s.owTick ph v).owLmask = s.owLmask ∧ (s.owTick ph v).params = s.params ∧ (s.owTick ph v).out = s.out ∧
    (s.owTick ph v).inputs = s.inputs ∧ (s.owTick ph v).tick = s.tick ∧ (s.owTick ph v).epoch = s.epoch := by
  obtain ⟨_, _, _, _, _, _, _, h⟩ := s.owTick_frame ph v
  simp [h]

@[simp] theorem State.owTick_idle (s : State) (v : Byte) : s.owTick .idle v = s := rfl

/-- The elements of the sequencer that a sample leaves (42_onewire_primitives.md R142). -/
@[simp] theorem State.sampleAtItsTick_keeps (s : State) (v : Byte) :
    (s.sampleAtItsTick v).owPhase = s.owPhase ∧ (s.sampleAtItsTick v).owOp = s.owOp ∧
    (s.sampleAtItsTick v).owBitn = s.owBitn := by
  obtain ⟨_, _, _, h⟩ := s.sampleAtItsTick_frame v
  simp [h]

/-- A sample of RESET writes OW_PRESENT and nothing else, one of READ OW_RDBIT and OW_DATA (42_onewire_primitives.md R142). -/
theorem State.takeSample_cases (s : State) (v : Byte) :
    s.takeSample v = s ∨
    (s.owPrim = .reset ∧ s.takeSample v = { s with owPresent := present v s.owLmask }) ∨
    (s.owPrim = .read ∧ ∃ d, (d = s.owData ∨ s.owOp = .recvbyte) ∧
      s.takeSample v = { s with owRdbit := rdbit s.params.rdCombine v s.owLmask, owData := d }) := by
  unfold State.takeSample
  split
  · next hp => exact .inr (.inl ⟨hp, rfl⟩)
  · next hp => exact .inr (.inr ⟨hp, _, by split <;> simp_all, rfl⟩)
  · exact .inl rfl
  · exact .inl rfl

theorem OwOp.isByteOp_iff (op : OwOp) : op.isByteOp = true ↔ op = .sendbyte ∨ op = .recvbyte := by cases op <;> decide

/-- The elements a sample writes, which the end of a primitive leaves (42_onewire_primitives.md R143). -/
@[simp] theorem State.endPrimitive_keeps (s : State) :
    s.endPrimitive.owPresent = s.owPresent ∧ s.endPrimitive.owRdbit = s.owRdbit ∧ s.endPrimitive.owData = s.owData := by
  unfold State.endPrimitive
  split <;> exact ⟨rfl, rfl, rfl⟩

/-- After its end a primitive is followed by a gap or, where it was the last one, by IDLE (42_onewire_primitives.md R143,
43_onewire_bytes.md R172). -/
theorem State.endPrimitive_phase (s : State) :
    s.endPrimitive.owPhase = .gap ∨
    (s.endPrimitive.owPhase = .idle ∧ (s.owOp = .sendbyte ∨ s.owOp = .recvbyte → s.endPrimitive.owBitn = 8#4)) := by
  unfold State.endPrimitive
  split
  · by_cases hlast : s.owBitn + 1#4 = 8#4
    · exact .inr ⟨if_pos hlast, fun _ => hlast⟩
    · exact .inl (if_neg hlast)
  · next hop => exact .inr ⟨rfl, fun h => absurd ((OwOp.isByteOp_iff _).mpr h) hop⟩

/-- How the phase goes on in a sequencer tick on the state's own phase: it stays; or the next one of DRIVE, RELEASE, GAP,
DRIVE begins when its time has come, RELEASE ending in IDLE at the last primitive (42_onewire_primitives.md R141 to R143,
43_onewire_bytes.md R172). -/
theorem State.owTick_phase (s : State) (v : Byte) :
    (s.owTick s.owPhase v).owPhase = s.owPhase ∨
    (s.owPhase = .drive ∧ (s.owTick s.owPhase v).owPhase = .release) ∨
    (s.owPhase = .gap ∧ (s.owTick s.owPhase v).owPhase = .drive ∧ (s.owTick s.owPhase v).owCnt = 0) ∨
    (s.owPhase = .release ∧ s.owCnt + 1 = s.params.tRel s.owPrim ∧
      ((s.owTick s.owPhase v).owPhase = .gap ∨
        ((s.owTick s.owPhase v).owPhase = .idle ∧
          (s.owOp = .sendbyte ∨ s.owOp = .recvbyte → (s.owTick s.owPhase v).owBitn = 8#4)))) := by
  cases hph : s.owPhase with
  | idle => exact .inl hph
  | drive =>
    simp only [State.owTick, State.driveTick, true_and]
    split
    · exact .inr (.inl rfl)
    · exact .inl hph
  | gap =>
    simp only [State.owTick, State.gapTick, true_and]
    split
    · exact .inr (.inr (.inl ⟨rfl, rfl⟩))
    · exact .inl hph
  | release =>
    simp only [State.owTick, State.releaseTick, true_and]
    split
    · next hend =>
      have hnext := (s.sampleAtItsTick v).endPrimitive_phase
      simp only [State.sampleAtItsTick_keeps] at hnext
      exact .inr (.inr (.inr ⟨hend, hnext⟩))
    · exact .inl (by simpa using hph)

/-- The results and the data byte after a sequencer tick are those of the sample of its release tick, if its tick has come. -/
theorem State.owTick_sample (s : State) (ph : Phase) (v : Byte) :
    (s.owTick ph v).owPresent = (if ph = .release then s.sampleAtItsTick v else s).owPresent ∧
    (s.owTick ph v).owRdbit = (if ph = .release then s.sampleAtItsTick v else s).owRdbit ∧
    (s.owTick ph v).owData = (if ph = .release then s.sampleAtItsTick v else s).owData := by
  cases ph with
  | idle => exact ⟨rfl, rfl, rfl⟩
  | drive => simp only [State.owTick, State.driveTick]; split <;> exact ⟨rfl, rfl, rfl⟩
  | gap => simp only [State.owTick, State.gapTick]; split <;> exact ⟨rfl, rfl, rfl⟩
  | release => simp only [State.owTick, State.releaseTick]; split <;> simp

/-- What a sequencer tick can do to the results and the data byte: nothing, or the sample of its primitive in its one tick
(42_onewire_primitives.md R142, 43_onewire_bytes.md R171). -/
theorem State.owTick_results (s : State) (ph : Phase) (v : Byte) :
    ((s.owTick ph v).owPresent = s.owPresent ∧ (s.owTick ph v).owRdbit = s.owRdbit ∧ (s.owTick ph v).owData = s.owData) ∨
    (ph = .release ∧ s.owPrim = .reset ∧ s.params.tSmp .reset = some s.owCnt ∧
      (s.owTick ph v).owPresent = present v s.owLmask ∧ (s.owTick ph v).owRdbit = s.owRdbit ∧
      (s.owTick ph v).owData = s.owData) ∨
    (ph = .release ∧ s.owPrim = .read ∧ s.params.tSmp .read = some s.owCnt ∧
      (s.owTick ph v).owPresent = s.owPresent ∧ (s.owTick ph v).owRdbit = rdbit s.params.rdCombine v s.owLmask ∧
      ((s.owTick ph v).owData = s.owData ∨ s.owOp = .recvbyte)) := by
  obtain ⟨hpresent, hrdbit, hdata⟩ := s.owTick_sample ph v
  rw [hpresent, hrdbit, hdata]
  by_cases hph : ph = .release
  · simp only [hph, if_true, true_and, State.sampleAtItsTick]
    split
    · next hsmp =>
      rcases s.takeSample_cases v with hs | ⟨hp, hs⟩ | ⟨hp, d, hd, hs⟩
      · exact .inl (by simp [hs])
      · exact .inr (.inl ⟨hp, hp ▸ hsmp, by simp [hs]⟩)
      · exact .inr (.inr ⟨hp, hp ▸ hsmp, by simp [hs, hd]⟩)
    · exact .inl ⟨rfl, rfl, rfl⟩
  · simp [hph]

/-! ## The cases of the shared transport operations -/

/-- The terminator of 00_scope.md R8, in numbers. -/
theorem term_eq : Config.term = 0x0A#8 := rfl

/-- The next index is the last one at the 127th byte of a line (40_transport_receive.md R100, 41_transport_transmit.md R120). -/
theorem succ_eq_lastIndex_iff (c : Cursor) : c + 1#7 = Config.lastIndex ↔ c.toNat + 1 = 127 := by
  unfold Config.lastIndex
  constructor <;> intro h <;> bv_omega

theorem eq_lastIndex_iff (c : Cursor) : c = Config.lastIndex ↔ c.toNat = 127 := by
  unfold Config.lastIndex
  constructor <;> intro h <;> bv_omega

/-- The elements a receive event leaves (10_state.md R20). -/
@[simp] theorem State.receive_keeps (s : State) (b : Byte) :
    (s.receive b).outBuf = s.outBuf ∧ (s.receive b).outCur = s.outCur ∧ (s.receive b).txEn = s.txEn ∧
    (s.receive b).owMask = s.owMask ∧ (s.receive b).owData = s.owData ∧ (s.receive b).owPhase = s.owPhase ∧
    (s.receive b).owOp = s.owOp ∧ (s.receive b).owLmask = s.owLmask ∧ (s.receive b).owPresent = s.owPresent ∧
    (s.receive b).owRdbit = s.owRdbit := by
  obtain ⟨_, _, _, _, h⟩ := s.receive_frame b
  simp [h]

/-- A receive event drives no port. -/
@[simp] theorem State.receive_out (s : State) (b : Byte) : (s.receive b).out = s.out := by
  obtain ⟨_, _, _, _, h⟩ := s.receive_frame b
  simp [h]

/-- The elements a push leaves (10_state.md R20). -/
@[simp] theorem State.push_keeps (s : State) (b : Byte) :
    (s.push b).inBuf = s.inBuf ∧ (s.push b).inCur = s.inCur ∧ (s.push b).inReady = s.inReady ∧ (s.push b).rxEn = s.rxEn ∧
    (s.push b).owMask = s.owMask ∧ (s.push b).owData = s.owData ∧ (s.push b).owPhase = s.owPhase ∧
    (s.push b).owOp = s.owOp ∧ (s.push b).owLmask = s.owLmask ∧ (s.push b).owPresent = s.owPresent ∧
    (s.push b).owRdbit = s.owRdbit := by
  obtain ⟨_, _, _, _, _, h⟩ := s.push_frame b
  simp [h]

/-- Of the ports a push drives `tx_wr` and `tx_data` at most (10_state.md R45). -/
theorem State.push_ports (s : State) (b : Byte) : ∃ wr d, (s.push b).out = { s.out with txWr := wr, txData := d } := by
  obtain ⟨_, _, _, wr, d, h⟩ := s.push_frame b
  exact ⟨wr, d, congrArg State.out h⟩

/-- So does a transmit-complete event. -/
theorem State.sendNext_ports (s : State) : ∃ wr d, s.sendNext.out = { s.out with txWr := wr, txData := d } := by
  obtain ⟨_, _, _, wr, d, h⟩ := s.sendNext_frame
  exact ⟨wr, d, congrArg State.out h⟩

/-- The elements a transmit-complete event leaves (10_state.md R20). -/
@[simp] theorem State.sendNext_keeps (s : State) :
    s.sendNext.inBuf = s.inBuf ∧ s.sendNext.inCur = s.inCur ∧ s.sendNext.inReady = s.inReady ∧
    s.sendNext.outBuf = s.outBuf ∧ s.sendNext.owMask = s.owMask ∧ s.sendNext.owData = s.owData ∧
    s.sendNext.owPhase = s.owPhase ∧ s.sendNext.owOp = s.owOp ∧ s.sendNext.owLmask = s.owLmask ∧
    s.sendNext.owPresent = s.owPresent ∧ s.sendNext.owRdbit = s.owRdbit := by
  obtain ⟨_, _, _, _, _, h⟩ := s.sendNext_frame
  simp [h]

/-- A received byte ends the line or leaves both its flags (40_transport_receive.md R100). -/
theorem State.receive_cases (s : State) (b : Byte) :
    ((b = 0x0A#8 ∨ s.inCur.toNat + 1 = 127) ∧ (s.receive b).inCur = 0#7 ∧ (s.receive b).inReady = true ∧
      (s.receive b).rxEn = false) ∨
    ((s.receive b).inReady = s.inReady ∧ (s.receive b).rxEn = s.rxEn) := by
  unfold State.receive
  split
  · next hend => exact .inl ⟨by rwa [succ_eq_lastIndex_iff, or_comm] at hend, rfl, rfl, rfl⟩
  · exact .inr ⟨rfl, rfl⟩

/-- A push completes the line and loads its first byte, or leaves TX_EN and loads none (41_transport_transmit.md R120). -/
theorem State.push_cases (s : State) (b : Byte) :
    ((b = 0x0A#8 ∨ s.outCur.toNat + 1 = 127) ∧ (s.push b).txEn = true ∧ (s.push b).out.txWr = true) ∨
    ((s.push b).txEn = s.txEn ∧ (s.push b).out.txWr = s.out.txWr) := by
  unfold State.push
  split
  · next hterm => exact .inl ⟨.inl hterm, rfl, rfl⟩
  · split
    · next hlast => exact .inl ⟨.inr ((succ_eq_lastIndex_iff _).mp hlast), rfl, rfl⟩
    · exact .inr ⟨rfl, rfl⟩

/-- A transmit-complete event loads the next byte of the line, or finds the line sent and loads none (41_transport_transmit.md
R122). -/
theorem State.sendNext_cases (s : State) :
    ((s.outByte s.outCur.toNat = 0x0A#8 ∨ s.outCur.toNat = 127) ∧ s.sendNext.txEn = false ∧
      s.sendNext.rxEn = true ∧ s.sendNext.out.txWr = s.out.txWr) ∨
    (s.sendNext.rxEn = s.rxEn ∧ s.sendNext.txEn = s.txEn ∧ s.sendNext.out.txWr = true) := by
  unfold State.sendNext
  split
  · exact .inr ⟨rfl, rfl, rfl⟩
  · next hend =>
    rw [← term_eq, ← eq_lastIndex_iff]
    exact .inl ⟨by tauto, rfl, rfl, rfl⟩

/-! ## What a host access names, by its address -/

theorem Input.writes_iff (i : Input) (addr : Byte) :
    i.writes addr = true ↔ i.hReq = true ∧ i.hWe = true ∧ i.hAddr = addr := by
  simp [Input.writes, and_assoc]

/-- A read does nothing but answer (20_memory.md R61, 44_host_access.md R191 to R199). -/
theorem exec_decodeRead (addr : Byte) (s : State) : ∃ v, exec (decodeRead addr) s = .next (s.answer v) := by
  unfold decodeRead
  split_ifs <;> exact ⟨_, rfl⟩

/-- A write to TP_CTRL acts by the bits 0 and 1 of its data, and by nothing else (10_state.md R42). -/
theorem exec_decodeControl (d : Byte) (s : State) :
    exec (decodeControl d) s =
      .next { s with inReady := s.inReady && !d.getLsbD 0, rxEn := s.rxEn || d.getLsbD 1 } := by
  have hbits : d.extractLsb' 0 2 = BitVec.ofBool (d.getLsbD 1) ++ BitVec.ofBool (d.getLsbD 0) := by
    apply BitVec.eq_of_getLsbD_eq
    intro k hk
    change _ = (BitVec.ofBool (d.getLsbD 1) ++ BitVec.ofBool (d.getLsbD 0) : BitVec (1 + 1)).getLsbD k
    rw [BitVec.getLsbD_extractLsb', BitVec.getLsbD_append]
    have hcases : k = 0 ∨ k = 1 := by omega
    rcases hcases with rfl | rfl <;> simp
  unfold decodeControl
  rw [hbits]
  cases d.getLsbD 0 <;> cases d.getLsbD 1 <;>
    simp [exec, execRsvdW, execTpAck, execTpArm, execTpAckarm]

theorem State.command_cases (s : State) (op : OwOp) :
    s.command op = s ∨ (s.owPhase = .idle ∧ s.command op = s.accept op) := by
  unfold State.command
  split
  · next hidle => exact .inr ⟨hidle, rfl⟩
  all_goals exact .inl rfl

/-- A write to OW_CMD issues the command of its opcode, or is ignored (30_encoding.md R83, 42_onewire_primitives.md R140). -/
theorem exec_decodeCommand (d : Byte) (s : State) :
    exec (decodeCommand d) s = .next s ∨
    ∃ op, op ≠ .noCommand ∧ d = op.code.setWidth 8 ∧ exec (decodeCommand d) s = .next (s.command op) := by
  unfold decodeCommand
  split_ifs with h1 h2 h3 h4 h5 h6
  · exact .inr ⟨.reset, by decide, h1, rfl⟩
  · exact .inr ⟨.write0, by decide, h2, rfl⟩
  · exact .inr ⟨.write1, by decide, h3, rfl⟩
  · exact .inr ⟨.readbit, by decide, h4, rfl⟩
  · exact .inr ⟨.sendbyte, by decide, h5, rfl⟩
  · exact .inr ⟨.recvbyte, by decide, h6, rfl⟩
  · exact .inl rfl

/-! ## The ready signals of a tick -/

/-- No byte is taken in a tick with a host access (10_state.md R45). -/
theorem State.rxReady_of_access {s : State} {i : Input} (hh : i.hReq = true) : s.rxReady i = false := by
  simp [State.rxReady, hh]

/-- Nor is a report. -/
theorem State.txcReady_of_access {s : State} {i : Input} (hh : i.hReq = true) : s.txcReady i = false := by
  simp [State.txcReady, hh]

/-- A byte is taken exactly where a receive event may occur and the host makes no access (10_state.md R45). -/
theorem State.rxReady_eq {s : State} {i : Input} (hrst : i.rst = false) (hh : i.hReq = false) :
    s.rxReady i = s.rxOpen := by
  simp [State.rxReady, hrst, hh]

/-- A report is taken exactly where a transmit-complete event may occur, the host makes no access and no byte is taken
(10_state.md R45). -/
theorem State.txcReady_eq {s : State} {i : Input} (hrst : i.rst = false) (hh : i.hReq = false) :
    s.txcReady i = (s.txOpen && !(i.rxValid && s.rxReady i)) := by
  simp [State.txcReady, hrst, hh]

/-- No byte is taken while a line is unread (40_transport_receive.md R101). -/
theorem State.rxReady_of_unread {s : State} {i : Input} (h : s.inReady = true) : s.rxReady i = false := by
  simp [State.rxReady, State.rxOpen, h]

/-- A report is taken only while a line is being sent (41_transport_transmit.md R123). -/
theorem State.txEn_of_txcReady {s : State} {i : Input} (h : s.txcReady i = true) : s.txEn = true := by
  simp only [State.txcReady, State.txOpen, Bool.and_eq_true] at h
  tauto

/-! ## What the action of a tick can be -/

/-- `u` is what the action of a tick without reset, with inputs `i`, makes of the state `s` (60_exceptions.md R224, 20_memory.md
R61), each case with what it shows about the inputs: no action, or an access that is ignored; a read; an accepted command; a write
to OW_MASK, OW_DATA or TP_CTRL; a push; a delivered byte; a taken report. -/
inductive TickAction (s : State) (i : Input) : State → Prop where
  | nothing (hrx : (i.rxValid && s.rxReady i) = false) (htx : (i.txcValid && s.txcReady i) = false) :
      TickAction s i (s.begin i)
  | answer (v : Byte) (hh : i.hReq = true) : TickAction s i ((s.begin i).answer v)
  | accept (op : OwOp) (hop : op ≠ .noCommand) (hc : i.commands op) (hidle : s.owPhase = .idle) :
      TickAction s i ((s.begin i).accept op)
  | setMask (hw : i.writes 0x81#8 = true) (hidle : s.owPhase = .idle) : TickAction s i { s.begin i with owMask := i.hWdata }
  | setData (hw : i.writes 0x82#8 = true) (hidle : s.owPhase = .idle) : TickAction s i { s.begin i with owData := i.hWdata }
  | control (hw : i.writes 0x85#8 = true) :
      TickAction s i
        { s.begin i with inReady := s.inReady && !i.hWdata.getLsbD 0, rxEn := s.rxEn || i.hWdata.getLsbD 1 }
  | push (hw : i.writes 0x86#8 = true) (htx : s.txEn = false) : TickAction s i ((s.begin i).push i.hWdata)
  | receive (hv : i.rxValid = true) (hready : s.rxReady i = true) : TickAction s i ((s.begin i).receive i.rxData)
  | report (hv : i.txcValid = true) (hready : s.txcReady i = true) : TickAction s i (s.begin i).sendNext

/-- A host access that changes nothing takes no byte and no report either. -/
theorem TickAction.ignored {s : State} {i : Input} (hh : i.hReq = true) : TickAction s i (s.begin i) :=
  .nothing (by simp [State.rxReady_of_access hh]) (by simp [State.txcReady_of_access hh])

/-- What a host write can be (20_memory.md R61, column MemWrite). -/
theorem TickAction.of_write {s u : State} {i : Input} (hh : i.hReq = true) (hwe : i.hWe = true)
    (he : exec (decodeWrite i.hAddr i.hWdata) (s.begin i) = .next u) : TickAction s i u := by
  have hw : ∀ {addr}, i.hAddr = addr → i.writes addr = true := fun ha => (i.writes_iff _).mpr ⟨hh, hwe, ha⟩
  unfold decodeWrite at he
  split_ifs at he with hcmd hmask hdata hctrl hpush
  · rcases exec_decodeCommand i.hWdata (s.begin i) with hc | ⟨op, hop, hcode, hc⟩ <;> rw [hc] at he <;> cases he
    · exact .ignored hh
    · rcases (s.begin i).command_cases op with hig | ⟨hidle, hacc⟩
      · rw [hig]; exact .ignored hh
      · rw [hacc]; exact .accept op hop ⟨hw hcmd, hcode⟩ hidle
  · simp only [exec, execOwSetmask] at he
    split at he <;> cases he
    · next hidle => exact .setMask (hw hmask) hidle
    all_goals exact .ignored hh
  · simp only [exec, execOwSetdata] at he
    split at he <;> cases he
    · next hidle => exact .setData (hw hdata) hidle
    all_goals exact .ignored hh
  · rw [exec_decodeControl] at he
    cases he
    exact .control (hw hctrl)
  · simp only [exec, execTpPush] at he
    split at he <;> cases he
    · exact .ignored hh
    · next htx => exact .push (hw hpush) (by simpa using htx)
  · cases he
    exact .ignored hh

/-- What the operation of a tick can be. -/
theorem TickAction.of_exec {s u : State} {i : Input} {op : Instr} (hrst : i.rst = false) (ha : s.action i = some op)
    (he : exec op (s.begin i) = .next u) : TickAction s i u := by
  unfold State.action at ha
  split_ifs at ha with hh hwe hrx htx <;> cases ha
  · exact .of_write hh hwe he
  · obtain ⟨v, hv⟩ := exec_decodeRead i.hAddr (s.begin i)
    rw [hv] at he
    cases he
    exact .answer v hh
  · rw [Bool.not_eq_true] at hh
    obtain ⟨hv, hopen⟩ : i.rxValid = true ∧ s.rxOpen = true := by simpa using hrx
    have hu : u = (s.begin i).receive i.rxData := by
      have hopen' : (s.begin i).rxOpen = true := hopen
      simpa [exec, execRxEvent, hopen', eq_comm] using he
    rw [hu]
    exact .receive hv ((s.rxReady_eq hrst hh).trans hopen)
  · rw [Bool.not_eq_true] at hh hrx
    obtain ⟨hv, hopen⟩ : i.txcValid = true ∧ s.txOpen = true := by simpa using htx
    have hu : u = (s.begin i).sendNext := by
      have hopen' : (s.begin i).txOpen = true := hopen
      simpa [exec, execTxDone, hopen', eq_comm] using he
    rw [hu]
    refine .report hv ?_
    rw [State.txcReady_eq hrst hh, State.rxReady_eq hrst hh, hopen, hrx]
    rfl

/-- In a tick without an action nothing offered is taken. -/
theorem TickAction.of_none {s : State} {i : Input} (hrst : i.rst = false) (ha : s.action i = none) :
    TickAction s i (s.begin i) := by
  unfold State.action at ha
  split_ifs at ha with hh hrx htx
  rw [Bool.not_eq_true] at hh hrx htx
  have hbyte : (i.rxValid && s.rxReady i) = false := by rw [State.rxReady_eq hrst hh, hrx]
  refine .nothing hbyte ?_
  rwa [State.txcReady_eq hrst hh, hbyte, Bool.not_false, Bool.and_true]

/-- What a tick without reset can do: its action, and then one sequencer tick on the phase it started with. -/
theorem step_tickAction {s t : State} (hrst : (s.inputAt 0).rst = false) (h : step s = .next t) :
    ∃ u, TickAction s (s.inputAt 0) u ∧ t = u.owTick s.owPhase (s.inputAt 0).owIn := by
  rcases step_cases h with ⟨hrst', _⟩ | ⟨_, ha, ht⟩ | ⟨_, op, u, ha, he, ht⟩
  · rw [hrst] at hrst'; cases hrst'
  · exact ⟨_, .of_none hrst ha, ht⟩
  · exact ⟨u, .of_exec hrst ha he, ht⟩

/-- In a tick that starts in IDLE the sequencer does nothing (42_onewire_primitives.md R141). -/
theorem step_of_idle {s t : State} (hrst : (s.inputAt 0).rst = false) (hidle : s.owPhase = .idle) (h : step s = .next t) :
    TickAction s (s.inputAt 0) t := by
  obtain ⟨u, hu, ht⟩ := step_tickAction hrst h
  rw [hidle, State.owTick_idle] at ht
  exact ht ▸ hu

/-- The ports that are functions of the state show it as it was at the start of the tick, whatever the tick does; an
action drives `h_rdata`, `tx_wr` and `tx_data` at most (10_state.md R45). -/
theorem step_ports {s t : State} (h : step s = .next t) :
    ∃ rd wr d, t.out = { s.portsFor (s.inputAt 0) with hRdata := rd, txWr := wr, txData := d } := by
  cases hrst : (s.inputAt 0).rst with
  | true =>
    rw [step_of_rst hrst] at h
    cases h
    exact ⟨_, _, _, rfl⟩
  | false =>
    obtain ⟨u, hu, rfl⟩ := step_tickAction hrst h
    simp only [State.owTick_keeps]
    cases hu with
    | receive => exact ⟨_, _, _, State.receive_out _ _⟩
    | push =>
      obtain ⟨_, _, hout⟩ := (s.begin (s.inputAt 0)).push_ports (s.inputAt 0).hWdata
      exact ⟨_, _, _, hout⟩
    | report =>
      obtain ⟨_, _, hout⟩ := (s.begin (s.inputAt 0)).sendNext_ports
      exact ⟨_, _, _, hout⟩
    | _ => exact ⟨_, _, _, rfl⟩

/-- The two handshakes of a tick, as the ports show them. -/
theorem step_ready {s t : State} (h : step s = .next t) :
    t.out.rxReady = s.rxReady (s.inputAt 0) ∧ t.out.txcReady = s.txcReady (s.inputAt 0) := by
  obtain ⟨_, _, _, hout⟩ := step_ports h
  rw [hout]
  exact ⟨rfl, rfl⟩

/-- The parameters and the inputs to come after a tick. -/
theorem step_keeps_run {s t : State} (h : step s = .next t) :
    t.params = s.params ∧ t.inputs = s.inputs.tail ∧ t.tick = s.tick + 1 := by
  rcases step_cases h with ⟨_, rfl⟩ | ⟨_, _, rfl⟩ | ⟨_, op, u, _, he, rfl⟩
  · exact ⟨rfl, rfl, rfl⟩
  · simp
  · obtain ⟨hparams, hinputs, htick, _⟩ := exec_keeps_run he
    simp [hparams, hinputs, htick]

/-- A tick uses up one input. -/
theorem step_inputAt {s t : State} (h : step s = .next t) (k : Nat) : t.inputAt k = s.inputAt (k + 1) :=
  have ⟨_, hinputs, htick⟩ := step_keeps_run h
  State.inputAt_of_tail hinputs htick k

theorem NoReset.head {n : Nat} {s : State} (h : NoReset (n + 1) s) : (s.inputAt 0).rst = false := h 0 (Nat.succ_pos n)

theorem NoReset.tail {n : Nat} {s t : State} (h : NoReset (n + 1) s) (hs : step s = .next t) : NoReset n t :=
  fun k hk => by rw [step_inputAt hs]; exact h (k + 1) (Nat.succ_lt_succ hk)

theorem NoAck.head {n : Nat} {s : State} (h : NoAck (n + 1) s) : (s.inputAt 0).acks = false := h 0 (Nat.succ_pos n)

theorem NoAck.tail {n : Nat} {s t : State} (h : NoAck (n + 1) s) (hs : step s = .next t) : NoAck n t :=
  fun k hk => by rw [step_inputAt hs]; exact h (k + 1) (Nat.succ_lt_succ hk)

/-- Every tick answers a next state (60_exceptions.md R220). -/
theorem step_completes (s : State) : ∃ t, step s = .next t := by
  cases hrst : (s.inputAt 0).rst with
  | true => exact ⟨_, step_of_rst hrst⟩
  | false =>
    cases ha : s.action (s.inputAt 0) with
    | none => exact ⟨_, step_of_none hrst ha⟩
    | some op =>
      obtain ⟨_, _, h⟩ := step_completes_action hrst ha
      exact ⟨_, h⟩

end Sys2Proof.Machine
end

section
/-! SUPPORT. The statements of 10_state.md: the ports and the status bytes, the values after reset, who sets and clears each
flag, who writes each element, and two runs, of the bytes loaded and of an unread line. -/

namespace Sys2Proof.Machine

/-! ## Loads and reports -/

/-- What the first tick of a run adds to what the run shows (10_state.md R46): a load, a report, a byte. -/
theorem length_loadedBytes_succ {n : Nat} {s t : State} (h : step s = .next t) :
    (loadedBytes (n + 1) s).length = t.out.txWr.toNat + (loadedBytes n t).length := by
  cases hwr : t.out.txWr <;> simp [loadedBytes, h, hwr, Nat.add_comm]

theorem reportsTaken_succ {n : Nat} {s t : State} (h : step s = .next t) :
    reportsTaken (n + 1) s =
      ((s.inputAt 0).txcValid && s.txcReady (s.inputAt 0)).toNat + reportsTaken n t := by
  rw [← (step_ready h).2]
  simp only [reportsTaken, h]
  cases (s.inputAt 0).txcValid && t.out.txcReady <;> rfl

theorem deliveredBytes_succ {n : Nat} {s t : State} (h : step s = .next t) :
    deliveredBytes (n + 1) s =
      (if (s.inputAt 0).rxValid && s.rxReady (s.inputAt 0) then [(s.inputAt 0).rxData] else []) ++ deliveredBytes n t := by
  simp [deliveredBytes, h, (step_ready h).1]

/-- TX_EN is 1 while a loaded byte is not reported: an action that loads a byte sets TX_EN or takes the report of the byte
before (41_transport_transmit.md R120, R122). -/
theorem TickAction.load_balance {s u : State} {i : Input} (h : TickAction s i u) :
    u.out.txWr.toNat + s.txEn.toNat = (i.txcValid && s.txcReady i).toNat + u.txEn.toNat := by
  have noReport : i.hReq = true → (i.txcValid && s.txcReady i) = false := fun hh => by
    simp [State.txcReady_of_access hh]
  have access : ∀ {addr}, i.writes addr = true → i.hReq = true := fun hw => ((i.writes_iff _).mp hw).1
  cases h with
  | nothing _ htx => rw [htx]; rfl
  | answer v hh => rw [noReport hh]; rfl
  | accept op _ hc _ => rw [noReport (access hc.1)]; rfl
  | setMask hw _ => rw [noReport (access hw)]; rfl
  | setData hw _ => rw [noReport (access hw)]; rfl
  | control hw => rw [noReport (access hw)]; rfl
  | push hw htx =>
    rw [noReport (access hw), htx]
    rcases (s.begin i).push_cases i.hWdata with ⟨_, hen, hwr⟩ | ⟨hen, hwr⟩
    · rw [hen, hwr]; rfl
    · rw [hen, hwr, State.begin_txEn, htx]; rfl
  | receive hv hready =>
    have hno : s.txcReady i = false := by simp [State.txcReady, hv, hready]
    simp [hno, State.portsFor]
  | report hv hready =>
    rw [hv, hready, State.txEn_of_txcReady hready]
    rcases (s.begin i).sendNext_cases with ⟨_, hen, _, hwr⟩ | ⟨_, hen, hwr⟩
    · rw [hen, hwr]; rfl
    · rw [hen, hwr, State.begin_txEn, State.txEn_of_txcReady hready]; rfl

/-- The balance of loads and reports over a run from any state, by induction over its ticks. -/
theorem load_balance {n : Nat} {s t : State} (hrst : NoReset n s) (h : afterTicks n s = some t) :
    (loadedBytes n s).length + s.txEn.toNat = reportsTaken n s + t.txEn.toNat := by
  induction n generalizing s with
  | zero => cases h; simp [loadedBytes, reportsTaken]
  | succ n ih =>
    obtain ⟨s', hs⟩ := step_completes s
    obtain ⟨u, hu, hs'⟩ := step_tickAction hrst.head hs
    have hrest := ih (hrst.tail hs) (afterTicks_succ hs ▸ h)
    have htick := hu.load_balance
    have hout : u.out = s'.out := by simp [hs']
    have hen : u.txEn = s'.txEn := by simp [hs']
    rw [hout, hen] at htick
    rw [length_loadedBytes_succ hs, reportsTaken_succ hs]
    omega

/-- Settles O31: a run that starts with TX_EN = 0 starts balanced. -/
theorem oneReportForEachLoadedByte : Obligations.OneReportForEachLoadedByte := by
  intro n s t hidle hrst h
  have hbalance := load_balance hrst h
  rw [hidle] at hbalance
  cases hen : t.txEn <;> simpa [hen] using hbalance

/-! ## The ports of a tick -/

/-- OW_OE, line by line (10_state.md R38). -/
theorem State.getLsbD_owOe (s : State) (k : Nat) :
    s.owOe.getLsbD k = (decide (s.owPhase = .drive) && s.owLmask.getLsbD k) := by
  unfold State.owOe
  split <;> simp [*]

theorem Phase.busy_eq (p : Phase) : p.busy = decide (p ≠ .idle) := by cases p <;> rfl

theorem Phase.crit_eq (p : Phase) : p.crit = decide (p = .drive ∨ p = .release) := by cases p <;> rfl

/-- Settles O8: every port but the three an action drives is one of the state at the start of the tick. -/
theorem portsShowTheStateAtTheStartOfTheTick : Obligations.PortsShowTheStateAtTheStartOfTheTick := by
  rintro s t i rfl h
  obtain ⟨_, _, _, hout⟩ := step_ports h
  rw [hout]
  exact ⟨fun k _ => s.getLsbD_owOe k, s.owPhase.busy_eq, s.owPhase.crit_eq, rfl, rfl, rfl, rfl⟩

/-! ## Who sets and clears the flags -/

/-- The flags of the input side in a tick without reset: kept; written by a write to TP_CTRL; IN_READY set and RX_EN cleared by
the byte that ends the line; RX_EN set by the report that finds the output line sent (10_state.md R23, R24). -/
theorem step_input_flags {s t : State} {i : Input} (hi : s.inputAt 0 = i) (hrst : i.rst = false) (h : step s = .next t) :
    (t.inReady = s.inReady ∧ t.rxEn = s.rxEn) ∨
    (i.writes 0x85#8 = true ∧ t.inReady = (s.inReady && !i.hWdata.getLsbD 0) ∧ t.rxEn = (s.rxEn || i.hWdata.getLsbD 1)) ∨
    ((i.rxValid = true ∧ t.out.rxReady = true) ∧ (i.rxData = 0x0A#8 ∨ s.inCur.toNat + 1 = 127) ∧ t.inCur = 0#7 ∧
      t.inReady = true ∧ t.rxEn = false) ∨
    ((i.txcValid = true ∧ t.out.txcReady = true) ∧ (s.outByte s.outCur.toNat = 0x0A#8 ∨ s.outCur.toNat = 127) ∧
      t.inReady = s.inReady ∧ t.rxEn = true ∧ t.txEn = false) := by
  subst hi
  rw [(step_ready h).1, (step_ready h).2]
  obtain ⟨u, hu, rfl⟩ := step_tickAction hrst h
  simp only [State.owTick_keeps]
  cases hu with
  | control hw => exact .inr (.inl ⟨hw, rfl, rfl⟩)
  | push => exact .inl (by simp)
  | receive hv hready =>
    rcases State.receive_cases (s.begin _) (s.inputAt 0).rxData with ⟨hend, hcur, hline, hen⟩ | hkept
    · exact .inr (.inr (.inl ⟨⟨hv, hready⟩, hend, hcur, hline, hen⟩))
    · exact .inl hkept
  | report hv hready =>
    rcases State.sendNext_cases (s.begin _) with ⟨hend, htx, hrx, _⟩ | ⟨hrx, _, _⟩
    · exact .inr (.inr (.inr ⟨⟨hv, hready⟩, hend, by simp, hrx, htx⟩))
    · exact .inl ⟨by simp, hrx⟩
  | _ => exact .inl ⟨rfl, rfl⟩

/-- TX_EN in a tick without reset: kept; set by the push that completes a line; cleared by the report that finds the line sent
(10_state.md R27). -/
theorem step_txEn {s t : State} {i : Input} (hi : s.inputAt 0 = i) (hrst : i.rst = false) (h : step s = .next t) :
    t.txEn = s.txEn ∨
    (i.writes 0x86#8 = true ∧ (i.hWdata = 0x0A#8 ∨ s.outCur.toNat + 1 = 127) ∧ t.txEn = true) ∨
    ((i.txcValid = true ∧ t.out.txcReady = true) ∧ (s.outByte s.outCur.toNat = 0x0A#8 ∨ s.outCur.toNat = 127) ∧
      t.txEn = false) := by
  subst hi
  rw [(step_ready h).2]
  obtain ⟨u, hu, rfl⟩ := step_tickAction hrst h
  simp only [State.owTick_keeps]
  cases hu with
  | push hw htx =>
    rcases State.push_cases (s.begin _) (s.inputAt 0).hWdata with ⟨hend, hen, _⟩ | ⟨hen, _⟩
    · exact .inr (.inl ⟨hw, hend, hen⟩)
    · exact .inl hen
  | receive => exact .inl (by simp)
  | report hv hready =>
    rcases State.sendNext_cases (s.begin _) with ⟨hend, hen, _⟩ | ⟨_, hen, _⟩
    · exact .inr (.inr ⟨⟨hv, hready⟩, hend, hen⟩)
    · exact .inl hen
  | _ => exact .inl rfl

/-- What an action can do to the phase: nothing, or the acceptance of a command (42_onewire_primitives.md R140). -/
theorem TickAction.phase_cases {s u : State} {i : Input} (h : TickAction s i u) :
    u.owPhase = s.owPhase ∨ ((∃ op, op ≠ .noCommand ∧ i.commands op) ∧ u.owPhase = .drive ∧ u.owCnt = 0) := by
  cases h with
  | accept op hop hc _ => exact .inr ⟨⟨op, hop, hc⟩, rfl, rfl⟩
  | push | receive | report => exact .inl (by simp)
  | _ => exact .inl rfl

/-- No action writes the results (10_state.md R36, R37). -/
theorem TickAction.keeps_results {s u : State} {i : Input} (h : TickAction s i u) :
    u.owPresent = s.owPresent ∧ u.owRdbit = s.owRdbit := by
  cases h with
  | push | receive | report => simp
  | _ => exact ⟨rfl, rfl⟩

/-- How the phase goes on in a tick without reset: it stays; a command accepted in IDLE starts a primitive; DRIVE ends; GAP
ends and starts a primitive; RELEASE ends, in IDLE after the last primitive (10_state.md R30, R38). -/
theorem step_phase {s t : State} (hrst : (s.inputAt 0).rst = false) (h : step s = .next t) :
    t.owPhase = s.owPhase ∨
    (s.owPhase = .idle ∧ (∃ op, op ≠ .noCommand ∧ (s.inputAt 0).commands op) ∧ t.owPhase = .drive ∧ t.owCnt = 0) ∨
    (s.owPhase = .drive ∧ t.owPhase = .release) ∨
    (s.owPhase = .gap ∧ t.owPhase = .drive ∧ t.owCnt = 0) ∨
    (s.owPhase = .release ∧ s.owCnt + 1 = s.params.tRel s.owPrim ∧
      (t.owPhase = .gap ∨
        (t.owPhase = .idle ∧ (s.owOp = .sendbyte ∨ s.owOp = .recvbyte → t.owBitn = 8#4)))) := by
  by_cases hidle : s.owPhase = .idle
  · exact (step_of_idle hrst hidle h).phase_cases.imp_right fun hstart => .inl ⟨hidle, hstart⟩
  · obtain ⟨ht, _⟩ := step_of_busy hrst hidle h
    have hphase : t.owPhase = _ := congrArg State.owPhase ht
    have hcnt : t.owCnt = _ := congrArg State.owCnt ht
    have hbitn : t.owBitn = _ := congrArg State.owBitn ht
    rw [hphase, hcnt, hbitn]
    exact (s.owTick_phase (s.inputAt 0).owIn).imp_right .inr

/-- What a tick without reset can do to the results and the data byte: nothing; a sample of RESET or of READ in its one tick;
an idle write to OW_DATA (10_state.md R29, R36, R37). -/
theorem step_results {s t : State} (hrst : (s.inputAt 0).rst = false) (h : step s = .next t) :
    (t.owPresent = s.owPresent ∨
      (s.owPhase = .release ∧ s.owPrim = .reset ∧ s.params.tSmp .reset = some s.owCnt ∧
        t.owPresent = present (s.inputAt 0).owIn s.owLmask)) ∧
    (t.owRdbit = s.owRdbit ∨
      (s.owPhase = .release ∧ s.owPrim = .read ∧ s.params.tSmp .read = some s.owCnt ∧
        t.owRdbit = rdbit s.params.rdCombine (s.inputAt 0).owIn s.owLmask)) ∧
    (s.owPhase ≠ .idle → t.owData = s.owData ∨ (s.owPhase = .release ∧ s.owPrim = .read ∧ s.owOp = .recvbyte)) := by
  by_cases hidle : s.owPhase = .idle
  · obtain ⟨hpresent, hrdbit⟩ := (step_of_idle hrst hidle h).keeps_results
    exact ⟨.inl hpresent, .inl hrdbit, fun hbusy => absurd hidle hbusy⟩
  · obtain ⟨ht, _⟩ := step_of_busy hrst hidle h
    have hpresent : t.owPresent = _ := congrArg State.owPresent ht
    have hrdbit : t.owRdbit = _ := congrArg State.owRdbit ht
    have hdata : t.owData = _ := congrArg State.owData ht
    rw [hpresent, hrdbit, hdata]
    rcases s.owTick_results s.owPhase (s.inputAt 0).owIn with
      ⟨hp, hr, hd⟩ | ⟨hph, hprim, hsmp, hp, hr, hd⟩ | ⟨hph, hprim, hsmp, hp, hr, hd⟩
    · exact ⟨.inl hp, .inl hr, fun _ => .inl hd⟩
    · exact ⟨.inr ⟨hph, hprim, hsmp, hp⟩, .inl hr, fun _ => .inl hd⟩
    · exact ⟨.inl hp, .inr ⟨hph, hprim, hsmp, hr⟩, fun _ => hd.imp_right fun hop => ⟨hph, hprim, hop⟩⟩

/-- Settles O16: each row of 10_state.md R39 from the cases of its flag. -/
theorem flagsChangeOnlyByTheirTable : Obligations.FlagsChangeOnlyByTheirTable := by
  rintro s t i rfl hrst h
  have hinput := step_input_flags rfl hrst h
  have htxEn := step_txEn rfl hrst h
  have hphase := step_phase hrst h
  obtain ⟨hpresent, hrdbit, _⟩ := step_results hrst h
  refine ⟨?inReadySet, ?inReadyCleared, ?rxEnSet, ?rxEnCleared, ?txEnSet, ?txEnCleared, ?busySet, ?busyCleared, ?critSet,
    ?critCleared, fun hne => hpresent.resolve_left hne, fun hne => hrdbit.resolve_left hne⟩
  case inReadySet | inReadyCleared | rxEnSet | rxEnCleared =>
    intro h0 h1
    rcases hinput with ⟨hline, hen⟩ | ⟨hw, hline, hen⟩ | ⟨htaken, hend, hcur, hline, hen⟩ | ⟨htaken, hend, hline, hen, htx⟩ <;>
      simp_all [Input.acks]
  case txEnSet | txEnCleared =>
    intro h0 h1
    rcases htxEn with hen | ⟨hw, hend, hen⟩ | ⟨htaken, hend, hen⟩ <;> simp_all
  case busySet | busyCleared | critSet | critCleared =>
    intro h0 h1
    rcases hphase with hsame | ⟨hidle, hstart, hnext, hcnt⟩ | ⟨hdrive, hnext⟩ | ⟨hgap, hnext, hcnt⟩ |
      ⟨hrel, hend, hnext | ⟨hnext, hbitn⟩⟩ <;> simp_all [Phase.crit]

/-! ## Who writes the elements -/

section Writers

variable {s u : State} {i : Input}

/-- IN_BUF and IN_CUR: a delivered byte (10_state.md R20). -/
theorem TickAction.input_writer (h : TickAction s i u) (hne : u.inBuf ≠ s.inBuf ∨ u.inCur ≠ s.inCur) :
    i.rxValid = true ∧ s.rxReady i = true := by
  cases h with
  | receive hv hready => exact ⟨hv, hready⟩
  | _ => simp at hne

/-- OUT_BUF: a push while no line is being sent. -/
theorem TickAction.outBuf_writer (h : TickAction s i u) (hne : u.outBuf ≠ s.outBuf) :
    i.writes 0x86#8 = true ∧ s.txEn = false := by
  cases h with
  | push hw htx => exact ⟨hw, htx⟩
  | _ => simp at hne

/-- OUT_CUR: a push or a taken report. -/
theorem TickAction.outCur_writer (h : TickAction s i u) (hne : u.outCur ≠ s.outCur) :
    i.writes 0x86#8 = true ∨ (i.txcValid = true ∧ s.txcReady i = true) := by
  cases h with
  | push hw _ => exact .inl hw
  | report hv hready => exact .inr ⟨hv, hready⟩
  | _ => simp at hne

/-- OW_MASK: a write to it in IDLE. -/
theorem TickAction.owMask_writer (h : TickAction s i u) (hne : u.owMask ≠ s.owMask) :
    i.writes 0x81#8 = true ∧ s.owPhase = .idle := by
  cases h with
  | setMask hw hidle => exact ⟨hw, hidle⟩
  | _ => simp at hne

/-- OW_DATA, but for the sequencer: a write to it in IDLE. -/
theorem TickAction.owData_writer (h : TickAction s i u) (hne : u.owData ≠ s.owData) :
    i.writes 0x82#8 = true ∧ s.owPhase = .idle := by
  cases h with
  | setData hw hidle => exact ⟨hw, hidle⟩
  | _ => simp at hne

/-- OW_OP and OW_LMASK: an acceptance. -/
theorem TickAction.command_writer (h : TickAction s i u) (hne : u.owOp ≠ s.owOp ∨ u.owLmask ≠ s.owLmask) :
    ∃ op, op ≠ .noCommand ∧ i.commands op ∧ s.owPhase = .idle := by
  cases h with
  | accept op hop hc hidle => exact ⟨op, hop, hc, hidle⟩
  | _ => simp at hne

end Writers

/-- Settles O17: the writer of each element; OW_DATA is the one element here the sequencer writes too. -/
theorem elementsAreWrittenOnlyByTheirWriters : Obligations.ElementsAreWrittenOnlyByTheirWriters := by
  rintro s t i rfl hrst h
  have hdata (hne : t.owData ≠ s.owData) : ((s.inputAt 0).writes 0x82#8 = true ∧ s.owPhase = .idle) ∨
      (s.owPhase = .release ∧ s.owPrim = .read ∧ s.owOp = .recvbyte) := by
    by_cases hidle : s.owPhase = .idle
    · exact .inl ((step_of_idle hrst hidle h).owData_writer hne)
    · obtain ⟨_, _, hdata⟩ := step_results hrst h
      exact .inr ((hdata hidle).resolve_left hne)
  rw [(step_ready h).1, (step_ready h).2]
  obtain ⟨u, hu, ht⟩ := step_tickAction hrst h
  refine ⟨fun hne => hu.input_writer ?_, fun hne => hu.outBuf_writer ?_, fun hne => hu.outCur_writer ?_,
    fun hne => hu.owMask_writer ?_, hdata, fun hne => hu.command_writer ?_⟩ <;> simpa [ht] using hne

/-! ## TP_CTRL -/

/-- Settles O22: a write to TP_CTRL is decoded by its data, and the read of TP_CTRL is reserved. -/
theorem controlWriteActsByItsBits : Obligations.ControlWriteActsByItsBits := by
  rintro s i rfl hrst
  refine ⟨fun hw => ?_, fun hh hwe haddr => ?_⟩
  · obtain ⟨hh, hwe, haddr⟩ := (Input.writes_iff _ _).mp hw
    have hop : s.action (s.inputAt 0) = some (decodeControl (s.inputAt 0).hWdata) := by
      simp [State.action, hh, hwe, haddr, decodeWrite]
    rw [step_of_action hrst hop, exec_decodeControl]
    rfl
  · have hop : s.action (s.inputAt 0) = some (.rsvdR 0x85#8) := by
      simp [State.action, hh, hwe, haddr, decodeRead]
    rw [step_of_action hrst hop]
    rfl

/-! ## An unread line -/

/-- An action that is no acknowledgement leaves an unread line: IN_READY, and every byte of IN_BUF (10_state.md R23). -/
theorem TickAction.unread {s u : State} {i : Input} (h : TickAction s i u) (hline : s.inReady = true)
    (hack : i.acks = false) : u.inReady = true ∧ u.inBuf = s.inBuf ∧ u.epoch = s.epoch := by
  cases h with
  | control hw => simpa [hline, Input.acks, hw] using hack
  | push =>
    obtain ⟨_, _, _, _, _, hp⟩ := (s.begin i).push_frame i.hWdata
    simp [hp, hline]
  | receive _ hready => simp [State.rxReady_of_unread hline] at hready
  | report =>
    obtain ⟨_, _, _, _, _, hp⟩ := (s.begin i).sendNext_frame
    simp [hp, hline]
  | _ => exact ⟨hline, rfl, rfl⟩

/-- Settles O24, by induction over the ticks: an unread line keeps `rx_ready` 0, so nothing is delivered into it. -/
theorem unreadLineIsNeverOverwritten : Obligations.UnreadLineIsNeverOverwritten := by
  intro n
  induction n with
  | zero => exact fun s hline _ _ => ⟨s, rfl, hline, rfl, fun _ => rfl⟩
  | succ n ih =>
    intro s hline hrst hack
    obtain ⟨s', hs⟩ := step_completes s
    obtain ⟨u, hu, hs'⟩ := step_tickAction hrst.head hs
    obtain ⟨huline, hubuf, huepoch⟩ := hu.unread hline hack.head
    have hline' : s'.inReady = true := by simpa [hs'] using huline
    have hbytes (k : Nat) : s'.inByte k = s.inByte k := by simp [State.inByte, hs', hubuf, huepoch]
    obtain ⟨t, ht, htline, hnone, htbytes⟩ := ih s' hline' (hrst.tail hs) (hack.tail hs)
    refine ⟨t, (afterTicks_succ hs).trans ht, htline, ?_, fun k => (htbytes k).trans (hbytes k)⟩
    rw [deliveredBytes_succ hs, hnone, State.rxReady_of_unread hline, Bool.and_false]
    rfl

/-! ## Reset values and parameters -/

/-- Settles O9: the reset state lists each value of 10_state.md R48. -/
theorem resetStateValues : Obligations.ResetStateValues := by
  unfold Obligations.ResetStateValues State.reset Ports.reset
  simp only [and_self]

/-- Settles O15. -/
theorem noTickChangesTheParameters : Obligations.NoTickChangesTheParameters :=
  fun _ _ h => (step_keeps_run h).1

/-! ## The status bytes -/

/-- The fields of OW_STAT (10_state.md R40). -/
theorem State.owStat_fields (s : State) :
    s.owStat.getLsbD 0 = s.owPhase.busy ∧ s.owStat.getLsbD 1 = s.owPhase.crit ∧ s.owStat.getLsbD 2 = s.owPresent ∧
    s.owStat.getLsbD 3 = s.owRdbit ∧ s.owStat.extractLsb' 4 4 = s.owBitn := by
  have hbit (k : Nat) : s.owStat.getLsbD k =
      (s.owBitn ++ (BitVec.ofBool s.owRdbit ++ (BitVec.ofBool s.owPresent ++
        (BitVec.ofBool s.owPhase.crit ++ BitVec.ofBool s.owPhase.busy))) : BitVec (4 + (1 + (1 + (1 + 1))))).getLsbD k := rfl
  simp only [BitVec.getLsbD_append] at hbit
  refine ⟨?_, ?_, ?_, ?_, BitVec.eq_of_getLsbD_eq fun k hk => ?_⟩
  case refine_5 =>
    rw [BitVec.getLsbD_extractLsb', hbit]
    simp [hk, show ¬ 4 + k < 1 + (1 + (1 + 1)) by omega]
  all_goals
    rw [hbit]
    simp

/-- The fields of TP_STAT (10_state.md R41). -/
theorem State.tpStat_fields (s : State) :
    s.tpStat.getLsbD 0 = s.inReady ∧ s.tpStat.getLsbD 1 = s.rxEn ∧ s.tpStat.getLsbD 2 = s.txEn ∧
    s.tpStat.extractLsb' 3 5 = 0#5 := by
  unfold State.tpStat
  cases s.inReady <;> cases s.rxEn <;> cases s.txEn <;> decide

/-- Settles O57: the two addresses are decoded as reads of the status bytes and as reserved writes. -/
theorem statusBytesHoldTheirFields : Obligations.StatusBytesHoldTheirFields := by
  refine ⟨fun d => ?_, fun _ _ _ => rfl, fun s => ⟨_, rfl, ?_⟩, fun s => ⟨_, rfl, s.tpStat_fields⟩, rfl, rfl⟩
  · simp [decodeRead, decodeWrite]
  · rw [← Phase.busy_eq, ← Phase.crit_eq]
    exact s.owStat_fields

end Sys2Proof.Machine
end

section
/-! SUPPORT. The line buffers over a tick and over a run (20_memory.md R60, R62, R64): the canonical form, the line the delivered
bytes make (40_transport_receive.md R106, R107), and what a host access to each address does (20_memory.md R61, R66). -/

namespace Sys2Proof.Machine

/-! ## A receive event, by its two cases -/

/-- The index after the cursor, where the cursor is in its range (10_state.md R47 INV-1). -/
theorem toNat_cursor_succ {c : Cursor} (h : c.toNat ≤ 126) : (c + 1#7).toNat = c.toNat + 1 := by
  bv_omega

/-- The byte that ends a line (40_transport_receive.md R100). -/
theorem State.receive_of_end {s : State} {b : Byte} (h : b = 0x0A#8 ∨ s.inCur.toNat + 1 = 127) :
    s.receive b = (s.storeIn s.inCur.toNat b).endInputLine (s.inCur + 1#7) :=
  if_pos (by rwa [succ_eq_lastIndex_iff, term_eq, or_comm])

/-- A byte inside a line. -/
theorem State.receive_of_inside {s : State} {b : Byte} (hb : b ≠ 0x0A#8) (hc : s.inCur.toNat + 1 ≠ 127) :
    s.receive b = (s.storeIn s.inCur.toNat b).setInCur (s.inCur + 1#7) :=
  if_neg (by rw [succ_eq_lastIndex_iff, term_eq, not_or]; exact ⟨hc, hb⟩)

/-! ## The input side in one tick -/

/-- A delivered byte is received: no other action takes place in a tick that takes one (60_exceptions.md R224). -/
theorem TickAction.of_delivery {s u : State} {i : Input} (h : TickAction s i u) (hv : i.rxValid = true)
    (hready : s.rxReady i = true) : u = (s.begin i).receive i.rxData := by
  have noAccess : ¬ i.hReq = true := fun hh => by simp [State.rxReady_of_access hh] at hready
  have noWrite {addr : Byte} : ¬ i.writes addr = true := fun hw => noAccess ((i.writes_iff _).mp hw).1
  cases h with
  | receive => rfl
  | nothing hrx => simp [hv, hready] at hrx
  | answer _ hh => exact absurd hh noAccess
  | accept _ _ hc => exact absurd hc.1 noWrite
  | setMask hw | setData hw | control hw | push hw => exact absurd hw noWrite
  | report _ htx => simp [State.txcReady, hv, hready] at htx

/-- An action that takes no byte and is no acknowledgement leaves IN_BUF, IN_CUR and IN_READY (10_state.md R20). -/
theorem TickAction.keeps_input {s u : State} {i : Input} (h : TickAction s i u) (hack : i.acks = false)
    (hnone : ¬ (i.rxValid = true ∧ s.rxReady i = true)) :
    u.inBuf = s.inBuf ∧ u.inCur = s.inCur ∧ u.inReady = s.inReady := by
  cases h with
  | receive hv hready => exact absurd ⟨hv, hready⟩ hnone
  | control hw =>
    have hbit : i.hWdata.getLsbD 0 = false := by simpa only [Input.acks, hw, Bool.true_and] using hack
    simp only [hbit, Bool.not_false, Bool.and_true]
    exact ⟨rfl, rfl, trivial⟩
  | _ => simp

/-- No action touches the number of resets. -/
theorem TickAction.epoch {s u : State} {i : Input} (h : TickAction s i u) : u.epoch = s.epoch := by
  cases h with
  | push => obtain ⟨_, _, _, _, _, hp⟩ := (s.begin i).push_frame i.hWdata; simp [hp]
  | receive => obtain ⟨_, _, _, _, hr⟩ := (s.begin i).receive_frame i.rxData; simp [hr]
  | report => obtain ⟨_, _, _, _, _, hn⟩ := (s.begin i).sendNext_frame; simp [hn]
  | _ => rfl

/-! ## The line the delivered bytes make -/

/-- The input side holds the line whose bytes are `bytes`: they stand in IN_BUF in order; as long as the line is open the cursor
counts them, and once it has ended its end mark follows (40_transport_receive.md R106, R107). -/
structure HoldsLine (bytes : List Byte) (s : State) : Prop where
  stored : ∀ k (h : k < bytes.length), s.inByte k = bytes[k]
  whileOpen : s.inReady = false → s.inCur.toNat = bytes.length ∧ bytes.length ≤ 126 ∧ 0x0A#8 ∉ bytes
  onceEnded : s.inReady = true → s.inCur = 0#7 ∧ s.inByte bytes.length = s.params.endMark ∧
    (bytes.length = 127 ∨ bytes.getLast? = some 0x0A#8) ∧ bytes.length ≤ 127 ∧ 0x0A#8 ∉ bytes.dropLast

theorem HoldsLine.nil {s : State} (hcur : s.inCur = 0#7) (hready : s.inReady = false) : HoldsLine [] s where
  stored := fun _ hk => absurd hk (Nat.not_lt_zero _)
  whileOpen := fun _ => by simp [hcur]
  onceEnded := fun hended => by simp [hready] at hended

/-- Holding a line is a matter of the input side alone. -/
theorem HoldsLine.congr {bytes : List Byte} {s t : State} (h : HoldsLine bytes s) (hbuf : t.inBuf = s.inBuf)
    (hcur : t.inCur = s.inCur) (hready : t.inReady = s.inReady) (hepoch : t.epoch = s.epoch) (hparams : t.params = s.params) :
    HoldsLine bytes t := by
  have hbyte (k : Nat) : t.inByte k = s.inByte k := by simp [State.inByte, hbuf, hepoch]
  obtain ⟨hstored, hopen, hended⟩ := h
  constructor <;> simpa only [hbyte, hcur, hready, hparams]

/-- A byte received into an open line is the line's next one, and ends it if it is the terminator or the 127th. -/
theorem HoldsLine.receive {bytes : List Byte} {s : State} (h : HoldsLine bytes s) (hready : s.inReady = false) (b : Byte) :
    HoldsLine (bytes ++ [b]) (s.receive b) := by
  obtain ⟨hcur, hlen, hterm⟩ := h.whileOpen hready
  have hnext : (s.inCur + 1#7).toNat = bytes.length + 1 := by rw [toNat_cursor_succ (by omega), hcur]
  have hbytes (k : Nat) (hk : k < (bytes ++ [b]).length) :
      (s.storeIn s.inCur.toNat b).inByte k = (bytes ++ [b])[k] := by
    rw [State.storeIn_inByte, hcur, List.getElem_append]
    rw [List.length_append, List.length_singleton] at hk
    split
    · next heq => simp [heq]
    · next hne => rw [dif_pos (by omega)]; exact h.stored k (by omega)
  by_cases hend : b = 0x0A#8 ∨ s.inCur.toNat + 1 = 127
  · rw [State.receive_of_end hend]
    refine ⟨fun k hk => ?_, fun hopen => by simp at hopen, fun _ => ⟨rfl, ?_, ?_, ?_, ?_⟩⟩
    · have hne : k ≠ (s.inCur + 1#7).toNat := by
        rw [hnext]
        simpa using Nat.ne_of_lt hk
      rw [State.endInputLine_inByte, if_neg hne, hbytes k hk]
    · simp [hnext]
    · rw [hcur] at hend
      simpa [or_comm] using hend
    · simpa using Nat.lt_succ_of_le hlen
    · simpa using hterm
  · rw [not_or] at hend
    obtain ⟨hb, hlast⟩ := hend
    rw [State.receive_of_inside hb hlast]
    refine ⟨hbytes, fun _ => ⟨?_, ?_, ?_⟩, fun hended => by simp [hready] at hended⟩
    · simpa using hnext
    · rw [List.length_append, List.length_singleton]
      omega
    · simp [hterm, Ne.symm hb]

/-- A tick without reset and acknowledgement: the byte it takes, if it takes one, is the line's next. -/
theorem HoldsLine.step {bytes : List Byte} {s t : State} (h : HoldsLine bytes s) (hrst : (s.inputAt 0).rst = false)
    (hack : (s.inputAt 0).acks = false) (hs : step s = .next t) :
    HoldsLine
      (bytes ++ if (s.inputAt 0).rxValid && s.rxReady (s.inputAt 0) then [(s.inputAt 0).rxData] else []) t := by
  obtain ⟨u, hu, rfl⟩ := step_tickAction hrst hs
  have hparams := (step_keeps_run hs).1
  have hline : HoldsLine
      (bytes ++ if (s.inputAt 0).rxValid && s.rxReady (s.inputAt 0) then [(s.inputAt 0).rxData] else []) u := by
    simp only [State.owTick_keeps] at hparams
    by_cases htaken : (s.inputAt 0).rxValid = true ∧ s.rxReady (s.inputAt 0) = true
    · obtain ⟨hv, hready⟩ := htaken
      have hopen : s.inReady = false := by
        by_contra hline
        simp [State.rxReady_of_unread (Bool.eq_true_of_not_eq_false hline)] at hready
      have hbegin : HoldsLine bytes (s.begin (s.inputAt 0)) := h.congr rfl rfl rfl rfl rfl
      simpa [hv, hready, hu.of_delivery hv hready] using hbegin.receive hopen (s.inputAt 0).rxData
    · obtain ⟨hbuf, hcur, hready⟩ := hu.keeps_input hack htaken
      simpa [htaken] using h.congr hbuf hcur hready hu.epoch hparams
  exact hline.congr (by simp) (by simp) (by simp) (by simp) (by simp)

/-- The line over a run, by induction over its ticks. -/
theorem HoldsLine.run {n : Nat} {bytes : List Byte} {s t : State} (h : HoldsLine bytes s) (hrst : NoReset n s)
    (hack : NoAck n s) (ht : afterTicks n s = some t) : HoldsLine (bytes ++ deliveredBytes n s) t := by
  induction n generalizing s bytes with
  | zero => cases ht; simpa [deliveredBytes] using h
  | succ n ih =>
    obtain ⟨s', hs⟩ := step_completes s
    have hrest := ih (h.step hrst.head hack.head hs) (hrst.tail hs) (hack.tail hs) (afterTicks_succ hs ▸ ht)
    rwa [List.append_assoc, ← deliveredBytes_succ hs] at hrest

/-- The parameters are constant over a run (10_state.md R49). -/
theorem afterTicks_params {n : Nat} {s t : State} (h : afterTicks n s = some t) : t.params = s.params := by
  induction n generalizing s with
  | zero => cases h; rfl
  | succ n ih =>
    obtain ⟨s', hs⟩ := step_completes s
    exact (ih (afterTicks_succ hs ▸ h)).trans (step_keeps_run hs).1

/-- Settles O23: the empty line is held at the start, and every tick keeps the line held. -/
theorem deliveredBytesMakeOneLine : Obligations.DeliveredBytesMakeOneLine := by
  intro n s t hcur hready hrst hack ht
  obtain ⟨hstored, hopen, hended⟩ := (HoldsLine.nil hcur hready).run hrst hack ht
  rw [afterTicks_params ht] at hended
  exact ⟨hstored, hopen, hended⟩

/-! ## The canonical form -/

/-- The two buffers are in canonical form (log 5). -/
def State.Canonical (s : State) : Prop := s.inBuf.wf = true ∧ s.outBuf.wf = true

/-- A cursor is 7 bits wide, so that the byte and the end mark go to indices below 128 (20_memory.md R64). -/
theorem State.Canonical.receive {s : State} (h : s.Canonical) (b : Byte) : (s.receive b).Canonical := by
  obtain ⟨hin, hout⟩ := h
  have hstored := Memory.wf_put hin (cursor_lt_cap s.inCur) b
  refine ⟨?_, by simpa using hout⟩
  unfold State.receive
  split
  · exact Memory.wf_put hstored (cursor_lt_cap (s.inCur + 1#7)) s.params.endMark
  · exact hstored

/-- So do the pushed byte and the forced terminator. -/
theorem State.Canonical.push {s : State} (h : s.Canonical) (b : Byte) : (s.push b).Canonical := by
  obtain ⟨hin, hout⟩ := h
  have hstored := Memory.wf_put hout (cursor_lt_cap s.outCur) b
  refine ⟨by simpa using hin, ?_⟩
  unfold State.push
  split
  · exact hstored
  · split
    · exact Memory.wf_put hstored (cursor_lt_cap Config.lastIndex) Config.term
    · exact hstored

theorem TickAction.keeps_canonical {s u : State} {i : Input} (h : TickAction s i u) (hc : s.Canonical) : u.Canonical := by
  have hbegin : (s.begin i).Canonical := hc
  cases h with
  | push => exact hbegin.push _
  | receive => exact hbegin.receive _
  | report => simpa [State.Canonical] using hc
  | _ => exact hc

/-- Settles O14: a reset tick empties both lists; in any other only a receive event and a push write a buffer. -/
theorem everyTickKeepsTheBuffersCanonical : Obligations.EveryTickKeepsTheBuffersCanonical := by
  refine ⟨⟨rfl, rfl⟩, fun s t hin hout hs => ?_⟩
  cases hrst : (s.inputAt 0).rst with
  | true =>
    rw [step_of_rst hrst] at hs
    cases hs
    exact ⟨rfl, rfl⟩
  | false =>
    obtain ⟨u, hu, rfl⟩ := step_tickAction hrst hs
    simpa [State.Canonical] using hu.keeps_canonical ⟨hin, hout⟩

/-! ## Host accesses, by address -/

/-- What a read of an address returns (20_memory.md R61, column MemRead). -/
def State.registerAt (s : State) (addr : Byte) : Byte :=
  if addr < 0x80#8 then s.inByte addr.toNat
  else if addr = 0x80#8 then s.owOp.code.setWidth 8
  else if addr = 0x81#8 then s.owMask
  else if addr = 0x82#8 then s.owData
  else if addr = 0x83#8 then s.owStat
  else if addr = 0x84#8 then s.tpStat
  else if addr = 0x87#8 then s.inCur.setWidth 8
  else if addr = 0x88#8 then s.outCur.setWidth 8
  else 0x00#8

/-- The operation a read names answers with that value (44_host_access.md R191 to R199, 40_transport_receive.md R105). -/
theorem exec_decodeRead_eq (addr : Byte) (s : State) : exec (decodeRead addr) s = .next (s.answer (s.registerAt addr)) := by
  unfold decodeRead State.registerAt
  simp only [getLsbD_seven_eq_false_iff]
  split_ifs with hwindow
  case pos =>
    have hindex : (addr.extractLsb' 0 7).toNat = addr.toNat := by
      rw [BitVec.extractLsb'_toNat, Nat.shiftRight_zero]
      exact Nat.mod_eq_of_lt hwindow
    simp [exec, execTpRdbuf, hindex]
  all_goals rfl

/-- The beginning of a tick changes no register. -/
@[simp] theorem State.begin_registerAt (s : State) (i : Input) (addr : Byte) :
    (s.begin i).registerAt addr = s.registerAt addr := rfl

/-- A tick with a read. -/
theorem step_of_read {s : State} (hrst : (s.inputAt 0).rst = false) (hh : (s.inputAt 0).hReq = true)
    (hwe : (s.inputAt 0).hWe = false) :
    step s = .next
      (((s.begin (s.inputAt 0)).answer (s.registerAt (s.inputAt 0).hAddr)).owTick s.owPhase (s.inputAt 0).owIn) := by
  have hop : s.action (s.inputAt 0) = some (decodeRead (s.inputAt 0).hAddr) := by simp [State.action, hh, hwe]
  rw [step_of_action hrst hop, exec_decodeRead_eq, State.begin_registerAt]

/-- Settles O55: the read's value is the one of its address's row in the state at the start of the tick. -/
theorem hostReadReturnsItsRegister : Obligations.HostReadReturnsItsRegister := by
  rintro s i rfl hrst hh hwe
  refine ⟨_, step_of_read hrst hh hwe, fun hwindow => if_pos hwindow, ?registers⟩
  unfold State.registerAt
  generalize (s.inputAt 0).hAddr = addr
  refine ⟨?_, ?_, ?_, ?_, ?_, ?_, ?_, ?_, ?_, fun habove => ?above⟩
  case above =>
    have hnone : ¬ addr < 0x80#8 ∧ addr ≠ 0x80#8 ∧ addr ≠ 0x81#8 ∧ addr ≠ 0x82#8 ∧ addr ≠ 0x83#8 ∧ addr ≠ 0x84#8 ∧
      addr ≠ 0x87#8 ∧ addr ≠ 0x88#8 := by bv_omega
    simp [hnone]
  all_goals
    rintro rfl
    rfl

/-- A tick with a write to an address. -/
theorem step_of_write {s u : State} {addr : Byte} (hrst : (s.inputAt 0).rst = false) (hh : (s.inputAt 0).hReq = true)
    (hwe : (s.inputAt 0).hWe = true) (haddr : (s.inputAt 0).hAddr = addr)
    (he : exec (decodeWrite addr (s.inputAt 0).hWdata) (s.begin (s.inputAt 0)) = .next u) :
    step s = .next (u.owTick s.owPhase (s.inputAt 0).owIn) := by
  have hop : s.action (s.inputAt 0) = some (decodeWrite addr (s.inputAt 0).hWdata) := by
    simp [State.action, hh, hwe, haddr]
  rw [step_of_action hrst hop, he]

/-- A write to an address that is not writable is reserved (44_host_access.md R199). -/
theorem decodeWrite_of_readOnly {addr : Byte} (data : Byte)
    (h : addr < 0x80#8 ∨ addr = 0x83#8 ∨ addr = 0x84#8 ∨ addr = 0x87#8 ∨ addr = 0x88#8 ∨ 0x89#8 ≤ addr) :
    decodeWrite addr data = .rsvdW addr data := by
  have hnone : addr ≠ 0x80#8 ∧ addr ≠ 0x81#8 ∧ addr ≠ 0x82#8 ∧ addr ≠ 0x85#8 ∧ addr ≠ 0x86#8 := by bv_omega
  simp [decodeWrite, hnone]

/-- OW_MASK and OW_DATA in phase IDLE and in every other (44_host_access.md R190, R192). -/
theorem exec_owSetmask_of_idle {s : State} (h : s.owPhase = .idle) (m : Byte) :
    exec (.owSetmask m) s = .next { s with owMask := m } := by
  simp [exec, execOwSetmask, h]

theorem exec_owSetdata_of_idle {s : State} (h : s.owPhase = .idle) (d : Byte) :
    exec (.owSetdata d) s = .next { s with owData := d } := by
  simp [exec, execOwSetdata, h]

theorem exec_owSetmask_of_busy {s : State} (h : s.owPhase ≠ .idle) (m : Byte) : exec (.owSetmask m) s = .next s := by
  cases hp : s.owPhase with
  | idle => exact absurd hp h
  | _ => simp [exec, execOwSetmask, hp]

theorem exec_owSetdata_of_busy {s : State} (h : s.owPhase ≠ .idle) (d : Byte) : exec (.owSetdata d) s = .next s := by
  cases hp : s.owPhase with
  | idle => exact absurd hp h
  | _ => simp [exec, execOwSetdata, hp]

/-- A push while a line is being sent is dropped (41_transport_transmit.md R121). -/
theorem exec_tpPush_of_sending {s : State} (h : s.txEn = true) (b : Byte) : exec (.tpPush b) s = .next s := by
  simp [exec, execTpPush, h]

/-- Settles O56: the operation of the write's address, and then the sequencer tick, which in IDLE does nothing. -/
theorem hostWriteActsOnItsRegister : Obligations.HostWriteActsOnItsRegister := by
  rintro s i rfl hrst hh hwe
  have hidle {u : State} (hp : s.owPhase = .idle) : u.owTick s.owPhase (s.inputAt 0).owIn = u := by
    rw [hp, State.owTick_idle]
  refine ⟨fun ha => ?readOnly, fun ha hp => ?mask, fun ha hp => ?data, fun ha hp => ?busy, fun ha htx => ?sending,
    fun ha _ => ?push⟩
  case readOnly =>
    have hop := decodeWrite_of_readOnly (s.inputAt 0).hWdata ha
    exact step_of_write hrst hh hwe rfl (by rw [hop]; rfl)
  case mask =>
    rw [step_of_write hrst hh hwe ha (exec_owSetmask_of_idle (s := s.begin _) hp _), hidle hp]
  case data =>
    rw [step_of_write hrst hh hwe ha (exec_owSetdata_of_idle (s := s.begin _) hp _), hidle hp]
  case busy =>
    rcases ha with ha | ha
    · exact step_of_write hrst hh hwe ha (exec_owSetmask_of_busy (s := s.begin _) hp _)
    · exact step_of_write hrst hh hwe ha (exec_owSetdata_of_busy (s := s.begin _) hp _)
  case sending => exact step_of_write hrst hh hwe ha (exec_tpPush_of_sending (s := s.begin _) htx _)
  case push => exact ⟨_, rfl, step_of_write hrst hh hwe ha rfl⟩

end Sys2Proof.Machine
end

section
/-! SUPPORT. A command in flight (20_memory.md R72): the one-wire unit goes on by its sequencer alone, so that its run is told
from the line levels: the phases of a primitive (42_onewire_primitives.md R141 to R143), the gap (43_onewire_bytes.md R172), and
the eight slots of OW.RECVBYTE (R171, R174). -/

namespace Sys2Proof.Machine

/-! ## The one-wire unit of a state -/

/-- The one-wire unit of `t`, and the parameters, are those of `x`. -/
def State.OneWireAs (t x : State) : Prop := t = x.withTransport t

theorem State.OneWireAs.trans {s t u : State} (h : s.OneWireAs t) (h' : t.OneWireAs u) : s.OneWireAs u := by
  have hs : s = t.withTransport s := h
  have ht : t = u.withTransport t := h'
  rw [ht] at hs
  exact hs

theorem State.OneWireAs.of_eq {t x u : State} (h : t = x.withTransport u) : t.OneWireAs x := by
  subst h
  rfl

/-- The ten elements of the one-wire unit (10_state.md R28 to R37). -/
theorem State.OneWireAs.elements {t x : State} (h : t.OneWireAs x) :
    t.owPhase = x.owPhase ∧ t.owOp = x.owOp ∧ t.owPrim = x.owPrim ∧ t.owCnt = x.owCnt ∧ t.owBitn = x.owBitn ∧
    t.owLmask = x.owLmask ∧ t.owMask = x.owMask ∧ t.owData = x.owData ∧ t.owPresent = x.owPresent ∧
    t.owRdbit = x.owRdbit := by
  rw [h]
  exact ⟨rfl, rfl, rfl, rfl, rfl, rfl, rfl, rfl, rfl, rfl⟩

/-- A sequencer tick depends on the one-wire unit alone. -/
theorem State.OneWireAs.owTick {t x : State} (h : t.OneWireAs x) (v : Byte) :
    (t.owTick t.owPhase v).OneWireAs (x.owTick x.owPhase v) := by
  obtain ⟨hphase, _⟩ := h.elements
  rw [hphase]
  have htick : t.owTick x.owPhase v = (x.withTransport t).owTick x.owPhase v := congrArg (State.owTick · x.owPhase v) h
  rw [State.owTick_withTransport] at htick
  exact .of_eq htick

/-- A tick without reset that starts busy is a sequencer tick of the one-wire unit, whatever else it does (20_memory.md R72). -/
theorem step_oneWire {s t : State} (hrst : (s.inputAt 0).rst = false) (hbusy : s.owPhase ≠ .idle) (h : step s = .next t) :
    t.OneWireAs (s.owTick s.owPhase (s.inputAt 0).owIn) :=
  (step_of_busy hrst hbusy h).1

/-- Settles O18: both ticks are the same sequencer tick of the same one-wire unit. -/
theorem nothingDisturbsARunningCommand : Obligations.NothingDisturbsARunningCommand := by
  intro s i j t u hbusy hi hj hin ht hu
  have placed (k : Input) : (s.placeInput k).OneWireAs s := rfl
  have hti := (step_oneWire (s := s.placeInput i) hi hbusy ht).trans ((placed i).owTick i.owIn)
  have huj := (step_oneWire (s := s.placeInput j) hj hbusy hu).trans ((placed j).owTick j.owIn)
  rw [← hin] at huj
  have ht' := hti.elements
  have hu' := huj.elements
  simp only [ht', hu', and_self]

/-! ## A run of sequencer ticks -/

/-- After `n` ticks from `s` the one-wire unit is that of `x`. -/
def OneWireAfter (n : Nat) (s x : State) : Prop := ∃ t, afterTicks n s = some t ∧ t.OneWireAs x

/-- The inputs after `n` ticks are the ones `n` ticks on. -/
theorem afterTicks_inputAt {n : Nat} {s t : State} (h : afterTicks n s = some t) (k : Nat) :
    t.inputAt k = s.inputAt (n + k) := by
  induction n generalizing s with
  | zero => cases h; rw [Nat.zero_add]
  | succ n ih =>
    obtain ⟨s', hs⟩ := step_completes s
    rw [ih (afterTicks_succ hs ▸ h), step_inputAt hs, Nat.add_right_comm]

/-- One more tick of a busy one-wire unit. -/
theorem OneWireAfter.tick {n : Nat} {s x : State} (h : OneWireAfter n s x) (hrst : (s.inputAt n).rst = false)
    (hbusy : x.owPhase ≠ .idle) : OneWireAfter (n + 1) s (x.owTick x.owPhase (s.inputAt n).owIn) := by
  obtain ⟨t, ht, htx⟩ := h
  obtain ⟨u, hu⟩ := step_completes t
  have hinput : t.inputAt 0 = s.inputAt n := afterTicks_inputAt ht 0
  obtain ⟨hphase, _⟩ := htx.elements
  have htick := step_oneWire (hinput ▸ hrst) (hphase ▸ hbusy) hu
  rw [hinput] at htick
  exact ⟨u, (afterTicks_add ht).trans (afterTicks_succ hu), htick.trans (htx.owTick _)⟩

/-- A run along a sequence of one-wire units, each one sequencer tick from the one before. -/
theorem OneWireAfter.run {m n N : Nat} {s : State} {x : Nat → State} (h : OneWireAfter m s (x 0)) (hrst : NoReset N s)
    (hN : m + n ≤ N) (hbusy : ∀ k < n, (x k).owPhase ≠ .idle)
    (htick : ∀ k < n, (x k).owTick (x k).owPhase (s.inputAt (m + k)).owIn = x (k + 1)) : OneWireAfter (m + n) s (x n) := by
  induction n with
  | zero => exact h
  | succ n ih =>
    have hprev := ih (by omega) (fun k hk => hbusy k (by omega)) (fun k hk => htick k (by omega))
    rw [← htick n (Nat.lt_succ_self n)]
    exact hprev.tick (hrst _ (by omega)) (hbusy n (Nat.lt_succ_self n))

/-! ## DRIVE and GAP -/

/-- `OW_CNT <- n`. -/
def State.withCnt (x : State) (n : Nat) : State := { x with owCnt := n }

/-- The elements and the parameters a count leaves. -/
@[simp] theorem State.withCnt_keeps (x : State) (n : Nat) :
    (x.withCnt n).owPhase = x.owPhase ∧ (x.withCnt n).owPrim = x.owPrim ∧ (x.withCnt n).params = x.params := ⟨rfl, rfl, rfl⟩

theorem State.withCnt_of_eq {x : State} {n : Nat} (h : x.owCnt = n) : x.withCnt n = x := by
  subst h
  rfl

/-- While a phase only counts, its count is the number of its ticks done. -/
theorem OneWireAfter.waits {m n N : Nat} {s x : State} (h : OneWireAfter m s x) (hrst : NoReset N s) (hN : m + n ≤ N)
    (hbusy : x.owPhase ≠ .idle) (hcnt : x.owCnt = 0)
    (hcounts : ∀ k < n, ∀ v, (x.withCnt k).owTick x.owPhase v = x.withCnt (k + 1)) : OneWireAfter (m + n) s (x.withCnt n) := by
  refine OneWireAfter.run (x := x.withCnt) ?_ hrst hN (fun _ _ => hbusy) (fun k hk => hcounts k hk _)
  rwa [State.withCnt_of_eq hcnt]

/-- The unit at the start of RELEASE, the rest as it is in DRIVE. -/
def State.toRelease (x : State) : State := { x with owPhase := .release, owCnt := 0 }

/-- A tick of DRIVE (42_onewire_primitives.md R141). -/
theorem State.driveTick_withCnt (x : State) (n : Nat) :
    (x.withCnt n).driveTick =
      if n + 1 = x.params.tDrv x.owPrim then x.toRelease else x.withCnt (n + 1) := rfl

/-- A tick of GAP (43_onewire_bytes.md R172). -/
theorem State.gapTick_withCnt (x : State) (n : Nat) :
    (x.withCnt n).gapTick =
      if n + 1 = x.params.tGap then { x with owCnt := 0, owPhase := .drive, owPrim := slotPrim x.owOp x.owData x.owBitn }
      else x.withCnt (n + 1) := rfl

/-- The ticks of DRIVE before its last. -/
theorem OneWireAfter.drive_counts {m n N : Nat} {s x : State} (h : OneWireAfter m s x) (hrst : NoReset N s) (hN : m + n ≤ N)
    (hphase : x.owPhase = .drive) (hcnt : x.owCnt = 0) (hn : n < x.params.tDrv x.owPrim) :
    OneWireAfter (m + n) s (x.withCnt n) := by
  refine h.waits hrst hN (by simp [hphase]) hcnt fun k hk v => ?_
  rw [hphase, State.owTick, State.driveTick_withCnt, if_neg (by omega)]

/-- DRIVE ends after `T_DRV` ticks. -/
theorem OneWireAfter.drive_ends {m N : Nat} {s x : State} (h : OneWireAfter m s x) (hrst : NoReset N s)
    (hN : m + x.params.tDrv x.owPrim ≤ N) (hphase : x.owPhase = .drive) (hcnt : x.owCnt = 0) :
    OneWireAfter (m + x.params.tDrv x.owPrim) s x.toRelease := by
  obtain ⟨n, hn⟩ := Nat.exists_eq_add_of_le' (Params.one_le_tDrv x.params x.owPrim)
  rw [hn] at hN ⊢
  have hlast := (h.drive_counts (n := n) hrst (by omega) hphase hcnt (by omega)).tick (hrst _ (by omega)) (by simp [hphase])
  simpa [hphase, State.owTick, State.driveTick_withCnt, hn, Nat.add_assoc] using hlast

/-- The ticks of GAP before its last. -/
theorem OneWireAfter.gap_counts {m n N : Nat} {s x : State} (h : OneWireAfter m s x) (hrst : NoReset N s) (hN : m + n ≤ N)
    (hphase : x.owPhase = .gap) (hcnt : x.owCnt = 0) (hn : n < x.params.tGap) : OneWireAfter (m + n) s (x.withCnt n) := by
  refine h.waits hrst hN (by simp [hphase]) hcnt fun k hk v => ?_
  rw [hphase, State.owTick, State.gapTick_withCnt, if_neg (by omega)]

/-- GAP ends after `T_GAP` ticks, and the next slot begins. -/
theorem OneWireAfter.gap_ends {m N : Nat} {s x : State} (h : OneWireAfter m s x) (hrst : NoReset N s)
    (hN : m + x.params.tGap ≤ N) (hphase : x.owPhase = .gap) (hcnt : x.owCnt = 0) :
    OneWireAfter (m + x.params.tGap) s
      { x with owCnt := 0, owPhase := .drive, owPrim := slotPrim x.owOp x.owData x.owBitn } := by
  obtain ⟨n, hn⟩ := Nat.exists_eq_add_of_le' (Params.one_le_tGap x.params)
  rw [hn] at hN ⊢
  have hlast := (h.gap_counts (n := n) hrst (by omega) hphase hcnt (by omega)).tick (hrst _ (by omega)) (by simp [hphase])
  simpa [hphase, State.owTick, State.gapTick_withCnt, hn, Nat.add_assoc] using hlast

/-! ## RELEASE -/

/-- The unit `x` with its primitive's sample, if that is among the first `n` ticks of RELEASE, `v k` being the line levels in
tick `k` of them (42_onewire_primitives.md R142). -/
def State.sampledBy (x : State) (v : Nat → Byte) (n : Nat) : State :=
  match x.params.tSmp x.owPrim with
  | some k => if k < n then x.takeSample (v k) else x
  | none => x

theorem State.sampledBy_of_lt {x : State} {v : Nat → Byte} {k n : Nat} (h : x.params.tSmp x.owPrim = some k) (hk : k < n) :
    x.sampledBy v n = x.takeSample (v k) := by
  simp [State.sampledBy, h, hk]

theorem State.sampledBy_of_not_lt {x : State} {v : Nat → Byte} {n : Nat} (h : ∀ k, x.params.tSmp x.owPrim = some k → ¬ k < n) :
    x.sampledBy v n = x := by
  unfold State.sampledBy
  split
  · next k hk => rw [if_neg (h k hk)]
  · rfl

/-- The elements and the parameters a sample leaves. -/
@[simp] theorem State.sampledBy_keeps (x : State) (v : Nat → Byte) (n : Nat) :
    (x.sampledBy v n).owPhase = x.owPhase ∧ (x.sampledBy v n).owPrim = x.owPrim ∧ (x.sampledBy v n).params = x.params := by
  unfold State.sampledBy
  split
  · next k _ =>
    obtain ⟨_, _, _, h⟩ := x.takeSample_frame (v k)
    split <;> simp [h]
  · simp

/-- A sample does not depend on the count. -/
theorem State.takeSample_withCnt (x : State) (v : Byte) (n : Nat) : (x.withCnt n).takeSample v = (x.takeSample v).withCnt n := by
  unfold State.takeSample
  rw [show (x.withCnt n).owPrim = x.owPrim from rfl]
  cases x.owPrim <;> rfl

/-- The end of a primitive starts the count anew. -/
theorem State.endPrimitive_withCnt (x : State) (n : Nat) : (x.withCnt n).endPrimitive = x.endPrimitive := by
  unfold State.endPrimitive
  rw [show (x.withCnt n).owOp = x.owOp from rfl]
  cases x.owOp.isByteOp <;> rfl

/-- With the sample of tick `n` of RELEASE, if it is that tick's, the unit has the one of the first `n + 1` ticks. -/
theorem State.sampleAtItsTick_sampledBy (x : State) (v : Nat → Byte) (n : Nat) :
    ((x.sampledBy v n).withCnt n).sampleAtItsTick (v n) = (x.sampledBy v (n + 1)).withCnt n := by
  unfold State.sampleAtItsTick
  simp only [State.withCnt_keeps, State.sampledBy_keeps, show ((x.sampledBy v n).withCnt n).owCnt = n from rfl]
  split
  · next hsmp =>
    have hbefore : x.sampledBy v n = x := State.sampledBy_of_not_lt (by simp [hsmp])
    rw [hbefore, State.sampledBy_of_lt hsmp (Nat.lt_succ_self n), State.takeSample_withCnt]
  · next hsmp =>
    have hsame : x.sampledBy v (n + 1) = x.sampledBy v n := by
      unfold State.sampledBy
      split
      · next k hk =>
        have hne : k ≠ n := fun hkn => hsmp (hkn ▸ hk)
        simp only [show k < n + 1 ↔ k < n by omega]
      · rfl
    rw [hsame]

/-- A tick of RELEASE (42_onewire_primitives.md R142). -/
theorem State.releaseTick_sampledBy (x : State) (v : Nat → Byte) (n : Nat) :
    ((x.sampledBy v n).withCnt n).releaseTick (v n) =
      if n + 1 = x.params.tRel x.owPrim then (x.sampledBy v (n + 1)).endPrimitive
      else (x.sampledBy v (n + 1)).withCnt (n + 1) := by
  unfold State.releaseTick
  rw [State.sampleAtItsTick_sampledBy, State.endPrimitive_withCnt]
  simp only [State.withCnt_keeps, State.sampledBy_keeps]
  rfl

/-- The ticks of RELEASE before its last. -/
theorem OneWireAfter.release_counts {m n N : Nat} {s x : State} (h : OneWireAfter m s x) (hrst : NoReset N s)
    (hN : m + n ≤ N) (hphase : x.owPhase = .release) (hcnt : x.owCnt = 0) (hn : n < x.params.tRel x.owPrim) :
    OneWireAfter (m + n) s ((x.sampledBy (fun k => (s.inputAt (m + k)).owIn) n).withCnt n) := by
  have hphase' (v : Nat → Byte) (k : Nat) : ((x.sampledBy v k).withCnt k).owPhase = .release := by simp [hphase]
  refine OneWireAfter.run (x := fun k => (x.sampledBy (fun k => (s.inputAt (m + k)).owIn) k).withCnt k) ?_ hrst hN
    (fun k _ => by simp [hphase]) (fun k hk => ?_)
  · rwa [State.sampledBy_of_not_lt (by simp), State.withCnt_of_eq hcnt]
  · rw [hphase']
    exact (x.releaseTick_sampledBy (fun k => (s.inputAt (m + k)).owIn) k).trans (if_neg (by omega))

/-- RELEASE ends after `T_REL` ticks, with the primitive's sample taken (42_onewire_primitives.md R142, R143). -/
theorem OneWireAfter.release_ends {m N : Nat} {s x : State} (h : OneWireAfter m s x) (hrst : NoReset N s)
    (hN : m + x.params.tRel x.owPrim ≤ N) (hphase : x.owPhase = .release) (hcnt : x.owCnt = 0) :
    OneWireAfter (m + x.params.tRel x.owPrim) s
      (x.sampledBy (fun k => (s.inputAt (m + k)).owIn) (x.params.tRel x.owPrim)).endPrimitive := by
  obtain ⟨n, hn⟩ := Nat.exists_eq_add_of_le' (Params.one_le_tRel x.params x.owPrim)
  rw [hn] at hN ⊢
  have hlast := (h.release_counts (n := n) hrst (by omega) hphase hcnt (by omega)).tick (hrst _ (by omega)) (by simp [hphase])
  have htick := x.releaseTick_sampledBy (fun k => (s.inputAt (m + k)).owIn) n
  rw [if_pos hn.symm] at htick
  simpa [hphase, State.owTick, htick, Nat.add_assoc] using hlast

/-- A primitive drives for `T_DRV` ticks, releases for `T_REL`, takes its sample in between and ends
(42_onewire_primitives.md R141 to R143). -/
theorem OneWireAfter.primitive_ends {m N : Nat} {s x : State} (h : OneWireAfter m s x) (hrst : NoReset N s)
    (hN : m + x.params.tDrv x.owPrim + x.params.tRel x.owPrim ≤ N) (hphase : x.owPhase = .drive) (hcnt : x.owCnt = 0) :
    OneWireAfter (m + x.params.tDrv x.owPrim + x.params.tRel x.owPrim) s
      (x.toRelease.sampledBy (fun k => (s.inputAt (m + x.params.tDrv x.owPrim + k)).owIn)
        (x.params.tRel x.owPrim)).endPrimitive :=
  (h.drive_ends hrst (by omega) hphase hcnt).release_ends hrst hN rfl rfl

/-! ## OW.RECVBYTE -/

/-- The opcode of a command, written in IDLE, issues it (30_encoding.md R83, 42_onewire_primitives.md R140). -/
theorem exec_decodeCommand_code {op : OwOp} (hop : op ≠ .noCommand) {s : State} (hidle : s.owPhase = .idle) :
    exec (decodeCommand (op.code.setWidth 8)) s = .next (s.accept op) := by
  have hcommand : s.command op = s.accept op := by simp [State.command, hidle]
  rw [← hcommand]
  cases op with
  | noCommand => exact absurd rfl hop
  | _ => rfl

/-- A command written to OW_CMD in IDLE is accepted in that tick (42_onewire_primitives.md R140). -/
theorem OneWireAfter.accept {s : State} {op : OwOp} (hop : op ≠ .noCommand) (hidle : s.owPhase = .idle)
    (hc : (s.inputAt 0).commands op) (hrst : (s.inputAt 0).rst = false) : OneWireAfter 1 s (s.accept op) := by
  obtain ⟨hw, hdata⟩ := hc
  obtain ⟨hh, hwe, haddr⟩ := (Input.writes_iff _ _).mp hw
  have he := exec_decodeCommand_code hop (s := s.begin (s.inputAt 0)) hidle
  have hstep := step_of_write hrst hh hwe haddr (hdata ▸ he)
  rw [hidle, State.owTick_idle] at hstep
  exact ⟨_, afterTicks_succ hstep, rfl⟩

/-- OW_DATA after the first `k` samples of an OW.RECVBYTE accepted in the next tick (43_onewire_bytes.md R171). -/
def receivedData (s : State) : Nat → Byte
  | 0 => s.owData
  | k + 1 => shiftIn (sampleOfSlot s k) (receivedData s k)

/-- OW_RDBIT after them. -/
def receivedBit (s : State) : Nat → Bool
  | 0 => s.owRdbit
  | k + 1 => sampleOfSlot s k

theorem getLsbD_shiftIn (bit : Bool) (data : Byte) {b : Nat} (hb : b < 8) :
    (shiftIn bit data).getLsbD b = if b = 7 then bit else data.getLsbD (b + 1) := by
  change (BitVec.ofBool bit ++ data.extractLsb' 1 7 : BitVec (1 + 7)).getLsbD b = _
  rw [BitVec.getLsbD_append, BitVec.getLsbD_extractLsb']
  by_cases h7 : b = 7
  · simp [h7]
  · simp [h7, show b < 7 by omega, Nat.add_comm]

/-- After `k` samples the top `k` bits are the sampled ones, the first lowest, and the others the top bits of the old value. -/
theorem getLsbD_receivedData (s : State) {k b : Nat} (hk : k ≤ 8) (hb : b < 8) :
    (receivedData s k).getLsbD b = if b + k < 8 then s.owData.getLsbD (b + k) else sampleOfSlot s (b + k - 8) := by
  induction k generalizing b with
  | zero => simp [receivedData, hb]
  | succ k ih =>
    rw [receivedData, getLsbD_shiftIn _ _ hb]
    split
    · next h7 => rw [if_neg (by omega), show b + (k + 1) - 8 = k by omega]
    · next h7 => rw [ih (by omega) (by omega), show b + 1 + k = b + (k + 1) by omega]

/-- The one-wire unit of an OW.RECVBYTE accepted in the next tick at the start of its slot `k`. -/
def recvSlot (s : State) (k : Nat) : State :=
  { s.accept .recvbyte with owBitn := BitVec.ofNat 4 k, owData := receivedData s k, owRdbit := receivedBit s k }

/-- Ticks from the first driven tick of one slot of OW.RECVBYTE to that of the next (43_onewire_bytes.md R174). -/
def recvSlotTicks (p : Params) : Nat := p.tDrv .read + p.tRel .read + p.tGap

/-- The sample of slot `k` and the end of its primitive (42_onewire_primitives.md R143, 43_onewire_bytes.md R171). -/
theorem endPrimitive_recvSlot (s : State) {k : Nat} (hk : k ≤ 7) :
    ((recvSlot s k).toRelease.sampledBy
      (fun j => (s.inputAt (1 + k * recvSlotTicks s.params + s.params.tDrv .read + j)).owIn)
      (s.params.tRel .read)).endPrimitive =
    { recvSlot s (k + 1) with owPhase := if k = 7 then .idle else .gap } := by
  have hsmp : s.params.tSmp .read = some s.params.timing.sampleRead := rfl
  have hbitn : BitVec.ofNat 4 k + 1#4 = BitVec.ofNat 4 (k + 1) := by simp [BitVec.ofNat_add]
  have hlast : BitVec.ofNat 4 (k + 1) = 8#4 ↔ k = 7 := by
    simp only [← BitVec.toNat_inj, BitVec.toNat_ofNat]
    omega
  rw [State.sampledBy_of_lt (x := (recvSlot s k).toRelease) hsmp (Params.tSmp_lt_tRel s.params hsmp)]
  simp [State.takeSample, State.endPrimitive, State.toRelease, recvSlot, State.accept, firstPrim, OwOp.isByteOp, hbitn, hlast,
    receivedData, receivedBit, sampleOfSlot, recvSlotTicks]

/-- A slot that has begun ends after its `T_DRV + T_REL` ticks. -/
theorem OneWireAfter.recvSlot_ends {k N : Nat} {s : State} (h : OneWireAfter (1 + k * recvSlotTicks s.params) s (recvSlot s k))
    (hk : k ≤ 7) (hrst : NoReset N s)
    (hN : 1 + k * recvSlotTicks s.params + s.params.tDrv .read + s.params.tRel .read ≤ N) :
    OneWireAfter (1 + k * recvSlotTicks s.params + s.params.tDrv .read + s.params.tRel .read) s
      { recvSlot s (k + 1) with owPhase := if k = 7 then .idle else .gap } :=
  endPrimitive_recvSlot s hk ▸ h.primitive_ends hrst hN rfl rfl

/-- Slot `k` begins `k` slots after the first driven tick (43_onewire_bytes.md R174). -/
theorem OneWireAfter.recvSlot_begins {k N : Nat} {s : State} (hidle : s.owPhase = .idle) (hc : (s.inputAt 0).commands .recvbyte)
    (hrst : NoReset N s) (hk : k ≤ 7) (hN : 1 + k * recvSlotTicks s.params ≤ N) :
    OneWireAfter (1 + k * recvSlotTicks s.params) s (recvSlot s k) := by
  induction k with
  | zero =>
    rw [Nat.zero_mul]
    exact OneWireAfter.accept (op := .recvbyte) (by decide) hidle hc (hrst 0 (by omega))
  | succ k ih =>
    have hticks : 1 + (k + 1) * recvSlotTicks s.params =
        1 + k * recvSlotTicks s.params + s.params.tDrv .read + s.params.tRel .read + s.params.tGap := by
      rw [recvSlotTicks]
      ring
    rw [hticks] at hN ⊢
    have hended := (ih (by omega) (by omega)).recvSlot_ends (by omega) hrst (by omega)
    rw [if_neg (by omega)] at hended
    exact hended.gap_ends hrst hN rfl rfl

/-- Settles O46: the eighth slot ends with eight samples taken. -/
theorem recvbyteCollectsTheSampledBits : Obligations.RecvbyteCollectsTheSampledBits := by
  intro s hidle hc hrst
  have hticks : 8 * (s.params.tDrv .read + s.params.tRel .read) + 7 * s.params.tGap + 1 =
      1 + 7 * recvSlotTicks s.params + s.params.tDrv .read + s.params.tRel .read := by
    rw [recvSlotTicks]
    ring
  rw [hticks] at hrst ⊢
  obtain ⟨t, ht, hunit⟩ :=
    (OneWireAfter.recvSlot_begins hidle hc hrst le_rfl (by omega)).recvSlot_ends le_rfl hrst le_rfl
  obtain ⟨hphase, _, _, _, hbitn, _, _, hdata, _, hrdbit⟩ := hunit.elements
  have hbits (k : Nat) (hk : k < 8) : t.owData.getLsbD k = sampleOfSlot s k := by
    rw [show t.owData = receivedData s 8 from hdata]
    simpa using getLsbD_receivedData s le_rfl hk
  refine ⟨t, ht, hphase, hbitn, hbits, ?_⟩
  rw [hrdbit, hbits 7 (by decide)]
  rfl

end Sys2Proof.Machine
end

section
/-! SUPPORT. The statements of 30_encoding.md R80 to R86: the encoder against the decoder, and the decoder against the opcode
map. -/

namespace Sys2Proof

/-! ## The encoder -/

/-- An opcode at OW_CMD that R83 does not define. -/
theorem decodeCommand_of_undefined {data : Byte} (h : data = 0x00#8 ∨ 0x07#8 ≤ data) :
    decodeCommand data = .rsvdW 0x80#8 data := by
  have hundefined : data ≠ 0x01#8 ∧ data ≠ 0x02#8 ∧ data ≠ 0x03#8 ∧ data ≠ 0x04#8 ∧ data ≠ 0x05#8 ∧ data ≠ 0x06#8 := by
    bv_omega
  simp [decodeCommand, hundefined]

/-- Neither bit of TP_CTRL (30_encoding.md R84). -/
theorem decodeControl_of_neither {data : Byte} (h : data.extractLsb' 0 2 = 0b00#2) :
    decodeControl data = .rsvdW 0x85#8 data := by
  simp [decodeControl, h]

/-- A write word of the reserved list decodes to itself (30_encoding.md R86). -/
theorem decodeWrite_of_reserved {addr data : Byte} (h : reservedWrite addr data = true) :
    decodeWrite addr data = .rsvdW addr data := by
  simp only [reservedWrite, Bool.or_eq_true, Bool.and_eq_true, decide_eq_true_eq, beq_iff_eq, or_assoc] at h
  have hcases : (addr < 0x80#8 ∨ addr = 0x83#8 ∨ addr = 0x84#8 ∨ addr = 0x87#8 ∨ addr = 0x88#8 ∨ 0x89#8 ≤ addr) ∨
      (addr = 0x80#8 ∧ (data = 0x00#8 ∨ 0x07#8 ≤ data)) ∨ (addr = 0x85#8 ∧ data.extractLsb' 0 2 = 0b00#2) := by tauto
  rcases hcases with hreadOnly | ⟨rfl, hundefined⟩ | ⟨rfl, hneither⟩
  · exact Machine.decodeWrite_of_readOnly data hreadOnly
  · exact decodeCommand_of_undefined hundefined
  · exact decodeControl_of_neither hneither

/-- So does a read word of it. -/
theorem decodeRead_of_reserved {addr : Byte} (h : reservedRead addr = true) : decodeRead addr = .rsvdR addr := by
  simp only [reservedRead, Bool.or_eq_true, decide_eq_true_eq, beq_iff_eq, or_assoc] at h
  have hwindow : ¬ addr < 0x80#8 := by bv_omega
  have hunreadable : addr ≠ 0x80#8 ∧ addr ≠ 0x81#8 ∧ addr ≠ 0x82#8 ∧ addr ≠ 0x83#8 ∧ addr ≠ 0x84#8 ∧ addr ≠ 0x87#8 ∧
      addr ≠ 0x88#8 := by bv_omega
  rw [← getLsbD_seven_eq_false_iff] at hwindow
  simp [decodeRead, hwindow, hunreadable]

/-- An address of the input buffer's window is its index (20_memory.md R61). -/
theorem decodeRead_window (i : BitVec 7) : decodeRead (0b0#1 ++ i) = .tpRdbuf i := by
  have hwindow : (0b0#1 ++ i : BitVec (1 + 7)).getLsbD 7 = false := by
    rw [BitVec.getLsbD_append]
    rfl
  have hindex : (0b0#1 ++ i : BitVec (1 + 7)).extractLsb' 0 7 = i := BitVec.extractLsb'_append_eq_right
  exact (if_pos hwindow).trans (congrArg Instr.tpRdbuf hindex)

/-- The word of an operation names it: a named row by its own fields, a reserved one as a word of the reserved list. -/
theorem decode_encode {i : Instr} (h : i.wf = true) : decode (encode i) = .instr i := by
  cases i with
  | rsvdW addr data => exact (decode_hostWord true addr data).trans (congrArg _ (decodeWrite_of_reserved h))
  | rsvdR addr => exact (decode_hostWord false addr _).trans (congrArg _ (decodeRead_of_reserved h))
  | tpRdbuf i => exact (decode_hostWord false _ _).trans (congrArg _ (decodeRead_window i))
  | rxEvent b => exact decode_receiveWord b
  | txDone => exact decode_reportWord _
  | _ => exact decode_hostWord _ _ _

/-- Settles O2, operation by operation. -/
theorem decodeOfEncodeIsTheOperation : Obligations.DecodeOfEncodeIsTheOperation :=
  fun _ => decode_encode

/-- Settles O4: only a word of the reserved list reaches a reserved operation. -/
theorem decodedOperationsAreWellFormed : Obligations.DecodedOperationsAreWellFormed :=
  fun _ _ => decode_wf

/-- Settles O1: the words are evaluated. -/
theorem tableWordsDecode : Obligations.TableWordsDecode := by
  unfold Obligations.TableWordsDecode
  decide

/-! ## The opcode map -/

/-- Two host words are the same if their fields are (30_encoding.md R80). -/
theorem hostWord_ext_iff (w v : HostWord) :
    w = v ↔ HostWord.we w = HostWord.we v ∧ HostWord.addr w = HostWord.addr v ∧ HostWord.data w = HostWord.data v := by
  refine ⟨by rintro rfl; exact ⟨rfl, rfl, rfl⟩, fun ⟨hwe, haddr, hdata⟩ => ?_⟩
  rw [← hostWord_fields w, ← hostWord_fields v, hwe, haddr, hdata]

/-- A mask acts on each field for itself. -/
theorem fields_and (w m : HostWord) :
    HostWord.we (w &&& m) = (HostWord.we w && HostWord.we m) ∧ HostWord.addr (w &&& m) = HostWord.addr w &&& HostWord.addr m ∧
    HostWord.data (w &&& m) = HostWord.data w &&& HostWord.data m :=
  ⟨BitVec.getLsbD_and .., BitVec.extractLsb'_and, BitVec.extractLsb'_and⟩

/-- A row selects a word by the word's fields under the fields of its mask (30_encoding.md R85). -/
theorem MapRow.selects_iff (r : MapRow) (w : HostWord) :
    r.selects w = true ↔ (HostWord.we w && HostWord.we r.mask) = HostWord.we r.pattern ∧
      HostWord.addr w &&& HostWord.addr r.mask = HostWord.addr r.pattern ∧
      HostWord.data w &&& HostWord.data r.mask = HostWord.data r.pattern := by
  obtain ⟨hwe, haddr, hdata⟩ := fields_and w r.mask
  rw [← hwe, ← haddr, ← hdata, ← hostWord_ext_iff]
  exact beq_iff_eq

/-- Two rows whose patterns differ in a bit that both compare select no common word. -/
theorem MapRow.disjoint_of_clash {r q : MapRow} (h : r.pattern &&& q.mask ≠ q.pattern &&& r.mask) (w : HostWord) :
    ¬ (r.selects w = true ∧ q.selects w = true) := by
  rintro ⟨hr, hq⟩
  have hr' : w &&& r.mask = r.pattern := beq_iff_eq.mp hr
  have hq' : w &&& q.mask = q.pattern := beq_iff_eq.mp hq
  refine h ?_
  rw [← hr', ← hq', BitVec.and_assoc, BitVec.and_assoc, BitVec.and_comm r.mask]

/-- The 20 named rows clash pairwise (30_encoding.md R85). -/
theorem namedRows_disjoint :
    namedRows.Pairwise (fun r q => ∀ w : HostWord, ¬ (r.selects w = true ∧ q.selects w = true)) := by
  have hclash : namedRows.Pairwise (fun r q => r.pattern &&& q.mask ≠ q.pattern &&& r.mask) := by
    unfold namedRows
    decide
  exact hclash.imp MapRow.disjoint_of_clash




/-- A mask of the map compares a whole field (30_encoding.md R82). -/
theorem and_wholeField (field : Byte) : field &&& 0xFF#8 = field := BitVec.and_allOnes

/-- Or bit 7 of the address, which is clear in the input buffer's window. -/
theorem and_windowBit_eq_iff (addr : Byte) : addr &&& 0x80#8 = 0x00#8 ↔ addr.getLsbD 7 = false := by
  have hbit : addr &&& 0x80#8 = if addr.getLsbD 7 then 0x80#8 else 0x00#8 := BitVec.and_twoPow addr 7
  rw [hbit]
  cases addr.getLsbD 7 <;> decide

/-- Or the two decoded bits of a write to TP_CTRL. -/
theorem and_controlBits_eq_iff (data : Byte) (bits : BitVec 2) :
    data &&& 0x03#8 = bits.setWidth 8 ↔ data.extractLsb' 0 2 = bits := by
  have hmask : (data &&& 0x03#8).toNat = (data.extractLsb' 0 2).toNat := by
    rw [BitVec.toNat_and, BitVec.extractLsb'_toNat, Nat.shiftRight_zero]
    exact Nat.and_two_pow_sub_one_eq_mod data.toNat 2
  rw [← BitVec.toNat_inj, hmask, ← BitVec.toNat_inj, BitVec.toNat_setWidth_of_le (by decide)]

/-- The first of some rows of the map that selects a word, read with its operands. -/
def lookupIn (rows : List MapRow) (w : HostWord) : Option Instr :=
  (rows.find? (fun r => r.selects w)).map (fun r => r.operands w)

/-- Row by row: a row that selects the word names it, and else the rows after it do. -/
theorem lookupIn_cons (r : MapRow) (rows : List MapRow) (w : HostWord) :
    lookupIn (r :: rows) w =
      if (HostWord.we w && HostWord.we r.mask) = HostWord.we r.pattern ∧
        HostWord.addr w &&& HostWord.addr r.mask = HostWord.addr r.pattern ∧
        HostWord.data w &&& HostWord.data r.mask = HostWord.data r.pattern
      then some (r.operands w) else lookupIn rows w := by
  simp only [← r.selects_iff, lookupIn, List.find?_cons]
  cases r.selects w <;> rfl

/-- The operands a row reads from a word are fields of the word (30_encoding.md R82). -/
theorem operands_hostWord (we : Bool) (addr data : Byte) :
    (hostWord we addr data).extractLsb' 0 8 = data ∧ (hostWord we addr data).extractLsb' 8 8 = addr ∧
    (hostWord we addr data).extractLsb' 8 7 = addr.extractLsb' 0 7 := by
  refine ⟨data_hostWord we addr data, addr_hostWord we addr data, ?_⟩
  conv_rhs => rw [← addr_hostWord we addr data]
  apply BitVec.eq_of_getLsbD_eq
  intro k hk
  simp [HostWord.addr, hk, Nat.lt_succ_of_lt hk]

/-- For a write: the register of the address, and at OW_CMD the opcode, at TP_CTRL the two bits (30_encoding.md R83, R84). -/
theorem lookupMap_write (addr data : Byte) : lookupMap (hostWord true addr data) = some (decodeWrite addr data) := by
  have hack := and_controlBits_eq_iff data 0b01#2
  have harm := and_controlBits_eq_iff data 0b10#2
  have hackarm := and_controlBits_eq_iff data 0b11#2
  simp only [BitVec.reduceSetWidth] at hack harm hackarm
  change lookupIn (namedRows ++ reservedRows) _ = _
  simp only [namedRows, reservedRows, List.cons_append, List.nil_append, lookupIn_cons, we_hostWord, addr_hostWord,
    data_hostWord, operands_hostWord]
  simp only [HostWord.we, HostWord.addr, HostWord.data]
  by_cases hcmd : addr = 0x80#8
  · simp [and_wholeField, hcmd, decodeWrite, decodeCommand, apply_ite some]
  by_cases hctrl : addr = 0x85#8
  · simp [and_wholeField, hack, harm, hackarm, hctrl, decodeWrite, decodeControl, apply_ite some]
  · simp [and_wholeField, hcmd, hctrl, decodeWrite, apply_ite some]

/-- For a read: the input buffer's window, and the register of the address (20_memory.md R61). -/
theorem lookupMap_read (addr data : Byte) : lookupMap (hostWord false addr data) = some (decodeRead addr) := by
  change lookupIn (namedRows ++ reservedRows) _ = _
  simp only [namedRows, reservedRows, List.cons_append, List.nil_append, lookupIn_cons, we_hostWord, addr_hostWord,
    data_hostWord, operands_hostWord]
  simp only [HostWord.we, HostWord.addr, HostWord.data]
  simp [and_wholeField, and_windowBit_eq_iff, decodeRead, apply_ite some]

/-- The decoder is the first row of the map that selects the word (30_encoding.md R85). -/
theorem lookupMap_eq (w : HostWord) : lookupMap w = some (decodeHost w) := by
  rw [← hostWord_fields w, decodeHost_hostWord]
  cases HostWord.we w with
  | true => exact lookupMap_write _ _
  | false => exact lookupMap_read _ _

/-- The mask of the event rows compares the kind (30_encoding.md R81). -/
theorem kind_of_masked {w : EventWord} {kind : BitVec 2} (h : w &&& 0x300#10 = eventWord kind 0x00#8) :
    EventWord.kind w = kind := by
  have hmask : EventWord.kind (w &&& 0x300#10) = EventWord.kind w :=
    BitVec.extractLsb'_and.trans BitVec.and_allOnes
  rw [← hmask, h, kind_eventWord]

/-- Settles O3: the map row by row, its rows' clashes, and the kinds of the event words. -/
theorem decoderIsTheOpcodeMap : Obligations.DecoderIsTheOpcodeMap := by
  refine ⟨lookupMap_eq, namedRows_disjoint, fun w h => ?_, fun w h => ?_, fun w ⟨hrx, htx⟩ => ?_⟩
  · simp [decode, decodeEvent, kind_of_masked (kind := 0b01#2) h, EventWord.data]
  · simp [decode, decodeEvent, kind_of_masked (kind := 0b10#2) h]
  · exact absurd (hrx.symm.trans htx) (by decide)

end Sys2Proof
end

section
/-! SUPPORT. A Write of a line (30_encoding.md R88, 41_transport_transmit.md R124): the bytes it pushes, the line they leave in
the output buffer, and its way out, a byte for each report (R120, R122, R125). -/

namespace Sys2Proof.Machine

/-! ## The bytes a Write pushes -/

/-- A Write pushes its line from the start (41_transport_transmit.md R124). -/
theorem pushedBytes_prefix (room : Nat) (line : List Byte) : pushedBytes room line <+: line := by
  induction room generalizing line with
  | zero => simp
  | succ room ih =>
    cases line with
    | nil => simp
    | cons b rest =>
      rw [pushedBytes_cons]
      split
      · exact List.prefix_append [b] rest
      · exact List.prefix_cons_inj b |>.mpr (ih rest)

/-- Without a terminator in its room, it pushes what the room holds. -/
theorem pushedBytes_of_no_term {room : Nat} {line : List Byte} (h : Config.term ∉ line.take room) :
    pushedBytes room line = line.take room := by
  induction room generalizing line with
  | zero => simp
  | succ room ih =>
    cases line with
    | nil => simp
    | cons b rest =>
      rw [List.take_succ_cons, List.mem_cons, not_or] at h
      rw [pushedBytes_cons, if_neg (Ne.symm h.1), List.take_succ_cons, ih h.2]

/-- With one, it pushes up to the first and with it. -/
theorem pushedBytes_of_term {room : Nat} {line : List Byte} (h : Config.term ∈ line.take room) :
    ∃ body, Config.term ∉ body ∧ pushedBytes room line = body ++ [Config.term] := by
  induction room generalizing line with
  | zero => simp at h
  | succ room ih =>
    cases line with
    | nil => simp at h
    | cons b rest =>
      rw [pushedBytes_cons]
      by_cases hb : b = Config.term
      · exact ⟨[], by simp, by simp [hb]⟩
      · obtain ⟨body, hbody, hpushed⟩ := ih (by simpa [Ne.symm hb] using h)
        exact ⟨b :: body, by simp [Ne.symm hb, hbody], by simp [hb, hpushed]⟩

/-- No byte pushed but the last is a terminator. -/
theorem term_not_mem_dropLast_pushedBytes (room : Nat) (line : List Byte) :
    Config.term ∉ (pushedBytes room line).dropLast := by
  by_cases h : Config.term ∈ line.take room
  · obtain ⟨body, hbody, hpushed⟩ := pushedBytes_of_term h
    simpa [hpushed] using hbody
  · rw [pushedBytes_of_no_term h]
    exact fun hmem => h (List.mem_of_mem_dropLast hmem)

/-! ## Sequences of operations -/

@[simp] theorem runOps_nil (s : State) : runOps [] s = some (s, []) := rfl

theorem runOps_cons {i : Instr} {rest : List Instr} {s t u : State} {loads : List Byte} (h : exec i s.quiet = .next t)
    (hrest : runOps rest t = some (u, loads)) : runOps (i :: rest) s = some (u, t.loaded ++ loads) := by
  simp [runOps, h, hrest]

theorem runOps_append {first rest : List Instr} {s t u : State} {loads more : List Byte}
    (hfirst : runOps first s = some (t, loads)) (hrest : runOps rest t = some (u, more)) :
    runOps (first ++ rest) s = some (u, loads ++ more) := by
  induction first generalizing s loads with
  | nil => cases hfirst; exact hrest
  | cons i first ih =>
    simp only [runOps] at hfirst
    split at hfirst
    · next v hv =>
      obtain ⟨⟨w, tail⟩, htail, heq⟩ := Option.map_eq_some_iff.mp hfirst
      cases heq
      rw [List.cons_append, List.append_assoc]
      exact runOps_cons hv (ih htail)
    all_goals cases hfirst

/-! ## A partial line -/

/-- A partial line waits in the output buffer, no line is being sent, and the one-wire unit is in no critical section: what a
Write leaves before its last push (41_transport_transmit.md R120). -/
structure Buffered (bytes : List Byte) (s : State) : Prop where
  notSending : s.txEn = false
  cursor : s.outCur.toNat = bytes.length
  stored : ∀ k (h : k < bytes.length), s.outByte k = bytes[k]
  notCritical : s.owPhase.crit = false

/-- The line's next byte, at the cursor. -/
theorem Buffered.storeOut {bytes : List Byte} {s : State} (h : Buffered bytes s) (b : Byte) (k : Nat)
    (hk : k < (bytes ++ [b]).length) : (s.storeOut s.outCur.toNat b).outByte k = (bytes ++ [b])[k] := by
  rw [State.storeOut_outByte, h.cursor, List.getElem_append]
  rw [List.length_append, List.length_singleton] at hk
  split
  · next heq => simp [heq]
  · next hne => rw [dif_pos (by omega)]; exact h.stored k (by omega)

/-- What starts an operation of a sequence keeps the line. -/
theorem Buffered.quiet {bytes : List Byte} {s : State} (h : Buffered bytes s) : Buffered bytes s.quiet := by
  obtain ⟨hsending, hcursor, hstored, hcritical⟩ := h
  exact ⟨hsending, hcursor, hstored, hcritical⟩

theorem exec_tpPush_of_buffered {bytes : List Byte} {s : State} (h : Buffered bytes s) (b : Byte) :
    exec (.tpPush b) s.quiet = .next (s.quiet.push b) := by
  simp [exec, execTpPush, h.notSending]

/-- A push that ends no line loads nothing. -/
theorem Buffered.push {bytes : List Byte} {s : State} (h : Buffered bytes s) {b : Byte} (hb : b ≠ Config.term)
    (hlen : bytes.length < 126) : Buffered (bytes ++ [b]) (s.push b) ∧ (s.push b).out = s.out := by
  have hcursor := h.cursor
  have hnotLast : ¬ s.outCur + 1#7 = Config.lastIndex := by rw [succ_eq_lastIndex_iff]; omega
  have hpush : s.push b = (s.storeOut s.outCur.toNat b).setOutCur (s.outCur + 1#7) := by
    simp [State.push, hb, hnotLast]
  rw [hpush]
  refine ⟨⟨h.notSending, ?_, h.storeOut b, h.notCritical⟩, rfl⟩
  simp [toNat_cursor_succ (c := s.outCur) (by omega), hcursor]

/-- The pushes of a Write before its last. -/
theorem Buffered.pushes {bytes more : List Byte} {s : State} (h : Buffered bytes s) (hterm : Config.term ∉ more)
    (hlen : bytes.length + more.length ≤ 126) :
    ∃ t, runOps (more.map .tpPush) s = some (t, []) ∧ Buffered (bytes ++ more) t := by
  induction more generalizing bytes s with
  | nil => exact ⟨s, rfl, by simpa using h⟩
  | cons b more ih =>
    rw [List.mem_cons, not_or] at hterm
    rw [List.length_cons] at hlen
    obtain ⟨hnext, hout⟩ := h.quiet.push (Ne.symm hterm.1) (by omega)
    obtain ⟨t, ht, hline⟩ := ih hnext hterm.2 (by simp; omega)
    refine ⟨t, ?_, by simpa using hline⟩
    have hloaded : (s.quiet.push b).loaded = [] := by simp [State.loaded, hout]
    simpa [hloaded] using runOps_cons (exec_tpPush_of_buffered h b) ht

/-- The same from an empty buffer. -/
theorem Buffered.pushes_empty {bytes : List Byte} {s : State} (h : Buffered [] s) (hterm : Config.term ∉ bytes)
    (hlen : bytes.length ≤ 126) : ∃ t, runOps (bytes.map .tpPush) s = some (t, []) ∧ Buffered bytes t :=
  h.pushes hterm ((Nat.zero_add _).trans_le hlen)

/-! ## A line in flight -/

/-- A line is in flight, in no critical section: its bytes stand in the output buffer, its last byte is its terminator, and the
byte at index `sent` was loaded last (41_transport_transmit.md R122). -/
structure InFlight (bytes : List Byte) (sent : Nat) (s : State) : Prop where
  sending : s.txEn = true
  cursor : s.outCur.toNat = sent
  inLine : sent < bytes.length
  bounded : bytes.length ≤ 128
  stored : ∀ k (h : k < bytes.length), s.outByte k = bytes[k]
  terminated : ∀ k (h : k < bytes.length), bytes[k] = Config.term ↔ k + 1 = bytes.length
  notCritical : s.owPhase.crit = false

/-- The last byte of a list whose others are no terminators. -/
theorem getElem_eq_term_iff {body : List Byte} (h : Config.term ∉ body) (k : Nat) (hk : k < (body ++ [Config.term]).length) :
    (body ++ [Config.term])[k] = Config.term ↔ k + 1 = (body ++ [Config.term]).length := by
  rw [List.length_append, List.length_singleton] at hk ⊢
  by_cases hbody : k < body.length
  · rw [List.getElem_append_left hbody]
    exact iff_of_false (fun hterm => h (hterm ▸ List.getElem_mem hbody)) (by omega)
  · simp [show k = body.length by omega]

/-- The start of a line's transmission loads its first byte (41_transport_transmit.md R120). -/
theorem InFlight.start {body : List Byte} {s : State} (hterm : Config.term ∉ body) (hlen : body.length ≤ 127)
    (hstored : ∀ k (h : k < (body ++ [Config.term]).length), s.outByte k = (body ++ [Config.term])[k])
    (hcrit : s.owPhase.crit = false) :
    InFlight (body ++ [Config.term]) 0 s.startTx ∧ s.startTx.loaded = (body ++ [Config.term]).take 1 := by
  refine ⟨⟨rfl, rfl, by simp, by simp; omega, hstored, getElem_eq_term_iff hterm, hcrit⟩, ?_⟩
  rw [List.take_one, List.head?_eq_getElem?, List.getElem?_eq_getElem (by simp), ← hstored 0 (by simp)]
  rfl

/-- The push of the terminator (41_transport_transmit.md R120). -/
theorem Buffered.push_term {bytes : List Byte} {s : State} (h : Buffered bytes s) (hterm : Config.term ∉ bytes)
    (hlen : bytes.length ≤ 126) :
    InFlight (bytes ++ [Config.term]) 0 (s.push Config.term) ∧
    (s.push Config.term).loaded = (bytes ++ [Config.term]).take 1 := by
  have hpush : s.push Config.term = (s.storeOut s.outCur.toNat Config.term).startTx := by simp [State.push]
  rw [hpush]
  exact InFlight.start hterm (by omega) (h.storeOut _) h.notCritical

/-- The push of the 127th byte, with a terminator forced behind it (41_transport_transmit.md R120). -/
theorem Buffered.push_last {bytes : List Byte} {s : State} (h : Buffered bytes s) (hterm : Config.term ∉ bytes)
    (hlen : bytes.length = 126) {b : Byte} (hb : b ≠ Config.term) :
    InFlight (bytes ++ [b] ++ [Config.term]) 0 (s.push b) ∧
    (s.push b).loaded = (bytes ++ [b] ++ [Config.term]).take 1 := by
  have hcursor := h.cursor
  have hlast : s.outCur + 1#7 = Config.lastIndex := by rw [succ_eq_lastIndex_iff]; omega
  have hpush : s.push b =
      ((s.storeOut s.outCur.toNat b).storeOut Config.lastIndex.toNat Config.term).startTx := by
    simp [State.push, hb, hlast]
  rw [hpush]
  refine InFlight.start (by simp [hterm, Ne.symm hb]) (by simp [hlen]) (fun k hk => ?_) h.notCritical
  have hindex : Config.lastIndex.toNat = (bytes ++ [b]).length := by simp [hlen, Config.lastIndex]
  rw [State.storeOut_outByte, hindex, List.getElem_append]
  rw [List.length_append, List.length_singleton] at hk
  split
  · next heq => simp [heq]
  · next hne => rw [dif_pos (by omega)]; exact h.storeOut b k (by omega)

theorem InFlight.quiet {bytes : List Byte} {sent : Nat} {s : State} (h : InFlight bytes sent s) :
    InFlight bytes sent s.quiet := by
  obtain ⟨hsending, hcursor, hin, hbounded, hstored, hterm, hcritical⟩ := h
  exact ⟨hsending, hcursor, hin, hbounded, hstored, hterm, hcritical⟩

theorem exec_txDone_of_inFlight {bytes : List Byte} {sent : Nat} {s : State} (h : InFlight bytes sent s) :
    exec .txDone s.quiet = .next s.quiet.sendNext := by
  simp [exec, execTxDone, State.txOpen, h.sending, h.notCritical]

/-- The byte at the cursor is the terminator exactly at the end of the line. -/
theorem InFlight.outByte_cursor {bytes : List Byte} {sent : Nat} {s : State} (h : InFlight bytes sent s) :
    s.outByte s.outCur.toNat = Config.term ↔ sent + 1 = bytes.length := by
  rw [h.cursor, h.stored sent h.inLine, h.terminated sent h.inLine]

/-- A report before the end of the line loads its next byte (41_transport_transmit.md R122). -/
theorem InFlight.sendNext {bytes : List Byte} {sent : Nat} {s : State} (h : InFlight bytes sent s)
    (hmore : sent + 1 < bytes.length) :
    InFlight bytes (sent + 1) s.sendNext ∧ s.sendNext.loaded = [bytes[sent + 1]] := by
  have hcursor := h.cursor
  have hbounded := h.bounded
  have hgoesOn : s.outByte s.outCur.toNat ≠ Config.term ∧ s.outCur ≠ Config.lastIndex := by
    rw [Ne, h.outByte_cursor, Ne, eq_lastIndex_iff]
    omega
  have hnext : s.sendNext = (s.setOutCur (s.outCur + 1#7)).emit (s.outByte (s.outCur.toNat + 1)) := by
    rw [State.sendNext, if_pos hgoesOn]
  rw [hnext]
  refine ⟨⟨h.sending, ?_, hmore, hbounded, h.stored, h.terminated, h.notCritical⟩, ?_⟩
  · simp [toNat_cursor_succ (c := s.outCur) (by omega), hcursor]
  · rw [hcursor, h.stored _ hmore]
    rfl

/-- The report at the end of the line ends its transmission (41_transport_transmit.md R122). -/
theorem InFlight.sendNext_last {bytes : List Byte} {sent : Nat} {s : State} (h : InFlight bytes sent s)
    (hend : sent + 1 = bytes.length) : s.sendNext = { s with outCur := 0#7, txEn := false, rxEn := true } := by
  rw [State.sendNext, if_neg (by simp [h.outByte_cursor, hend])]

/-- The rest of a line in flight leaves byte by byte, and the report of its terminator ends it (41_transport_transmit.md
R125). -/
theorem InFlight.drain {bytes : List Byte} {sent : Nat} {s : State} (h : InFlight bytes sent s) (n : Nat)
    (hn : sent + n = bytes.length) :
    ∃ t, runOps (List.replicate n .txDone) s = some (t, bytes.drop (sent + 1)) ∧ t.txEn = false ∧ t.outCur = 0#7 ∧
      t.rxEn = true := by
  have hin := h.inLine
  induction n generalizing sent s with
  | zero => omega
  | succ n ih =>
    rw [List.replicate_succ]
    by_cases hend : sent + 1 = bytes.length
    · obtain rfl : n = 0 := by omega
      have hlast := h.quiet.sendNext_last hend
      have hloaded : s.quiet.sendNext.loaded = [] := by rw [hlast]; rfl
      refine ⟨s.quiet.sendNext, ?_, by rw [hlast], by rw [hlast], by rw [hlast]⟩
      rw [hend, List.drop_length, List.replicate_zero, runOps_cons (exec_txDone_of_inFlight h) (runOps_nil _), hloaded]
      rfl
    · have hmore : sent + 1 < bytes.length := by omega
      obtain ⟨hnext, hloaded⟩ := h.quiet.sendNext hmore
      obtain ⟨t, ht, hdone⟩ := ih hnext (by omega) hmore
      refine ⟨t, ?_, hdone⟩
      rw [runOps_cons (exec_txDone_of_inFlight h) ht, hloaded, List.drop_eq_getElem_cons hmore]
      rfl

/-- A Write whose last push starts the line, and a report for each of the line's bytes: the whole line is loaded. -/
theorem Buffered.write_and_drain {body bytes : List Byte} {b : Byte} {s t : State} (h : Buffered body t)
    (hpushes : runOps (body.map .tpPush) s = some (t, []))
    (hstart : InFlight bytes 0 (t.quiet.push b) ∧ (t.quiet.push b).loaded = bytes.take 1) :
    ∃ u, runOps ((body ++ [b]).map .tpPush ++ List.replicate bytes.length .txDone) s = some (u, bytes) ∧ u.txEn = false ∧
      u.outCur = 0#7 ∧ u.rxEn = true := by
  obtain ⟨hflight, hloaded⟩ := hstart
  obtain ⟨u, hu, hdone⟩ := hflight.drain bytes.length (Nat.zero_add _)
  refine ⟨u, ?_, hdone⟩
  have hlast := runOps_cons (exec_tpPush_of_buffered h b) hu
  rw [hloaded, List.take_append_drop] at hlast
  simpa using runOps_append hpushes hlast

/-- Settles O30: the pushes before the last leave a partial line; the last starts it, with or without a forced terminator, or
there is none. -/
theorem writeLineLoadsExactlyTheLine : Obligations.WriteLineLoadsExactlyTheLine := by
  intro s bytes pushed hcur hidle hdrive hrelease hpushed
  have hempty : Buffered [] s := by
    refine ⟨hidle, by simp [hcur], fun k hk => absurd hk (Nat.not_lt_zero k), ?_⟩
    simpa [hdrive, hrelease] using s.owPhase.crit_eq
  have hops : writeLine s bytes = pushed.map .tpPush := by
    rw [hpushed, writeLine_of_idle hidle (by simp [hcur]), hcur]
    rfl
  rw [hops, ← term_eq]
  refine ⟨hpushed ▸ pushedBytes_prefix 127 bytes, hpushed ▸ term_not_mem_dropLast_pushedBytes 127 bytes, ?term, ?cut,
    ?short⟩
  case term =>
    intro hterm
    obtain ⟨body, hbody, hline⟩ := pushedBytes_of_term hterm
    have hlen := length_pushedBytes_le 127 bytes
    rw [hline, List.length_append, List.length_singleton] at hlen
    obtain ⟨t, ht, hbuffered⟩ := hempty.pushes_empty hbody (by omega)
    have hstart := hbuffered.quiet.push_term hbody (by omega)
    obtain ⟨u, hu, hdone⟩ := hbuffered.write_and_drain ht hstart
    rw [hpushed, hline]
    exact ⟨u, hu, by simp, hdone⟩
  case cut =>
    intro hterm hlong
    have hpushed' := hpushed.trans (pushedBytes_of_no_term hterm)
    have hline : bytes.take 126 ++ [bytes[126]] = bytes.take 127 := List.take_append_getElem hlong
    have hlen : (bytes.take 126).length = 126 := by simp; omega
    rw [← hline, List.mem_append, List.mem_singleton, not_or] at hterm
    obtain ⟨hbody, hb⟩ := hterm
    obtain ⟨t, ht, hbuffered⟩ := hempty.pushes_empty hbody hlen.le
    obtain ⟨u, hu, hdone⟩ := hbuffered.write_and_drain ht (hbuffered.quiet.push_last hbody hlen (Ne.symm hb))
    have hreports : (bytes.take 126 ++ [bytes[126]] ++ [Config.term]).length = 128 := by simp; omega
    rw [hreports] at hu
    rw [hpushed', ← hline]
    exact ⟨u, hu, hdone⟩
  case short =>
    intro hterm hshort
    have hall : bytes.take 127 = bytes := List.take_of_length_le (by omega)
    rw [pushedBytes_of_no_term hterm, hall] at hpushed
    obtain ⟨t, ht, hbuffered⟩ := hempty.pushes_empty (hall ▸ hterm) (by omega)
    rw [hpushed]
    exact ⟨t, ht, hbuffered.cursor, hbuffered.notSending, hbuffered.stored⟩

end Sys2Proof.Machine
end

section
/-! SUPPORT. The host's scripts of 30_encoding.md R88, access by access: what a host access makes of the state, and `readLine`. -/

namespace Sys2Proof.Machine

/-! ## One host access -/

/-- The state at the beginning of the tick in which the host accesses the block with the word `w`. -/
def State.beginAccess (s : State) (w : HostWord) : State :=
  (s.placeInput ((s.inputAt 0).withHostWord w)).begin ((s.inputAt 0).withHostWord w)

/-- Its place in the run. -/
@[simp] theorem State.beginAccess_run (s : State) (w : HostWord) :
    (s.beginAccess w).inputs = s.inputs.tail ∧ (s.beginAccess w).tick = s.tick + 1 :=
  ⟨rfl, rfl⟩

/-- A host access is its operation, on the state at the beginning of its tick, and then one sequencer tick. -/
theorem hostAccess_eq {i : Instr} {w : HostWord} {s u : State} (hw : encode i = .host w) (hwf : i.wf = true)
    (he : exec i (s.beginAccess w) = .next u) : hostAccess i s = some (u.owTick s.owPhase (s.inputAt 0).owIn) := by
  have hd : decode (.host w) = .instr i := hw ▸ decode_encode hwf
  exact hostAccess_of_exec hw (Decoded.instr.inj hd) he

/-- What the operation of a host access leaves of the input side, the access leaves. -/
theorem hostAccess_input {i : Instr} {w : HostWord} {s u : State} (hw : encode i = .host w) (hwf : i.wf = true)
    (he : exec i (s.beginAccess w) = .next u) :
    ∃ t, hostAccess i s = some t ∧ t.out = u.out ∧ t.inReady = u.inReady ∧ t.rxEn = u.rxEn ∧ ∀ k, t.inByte k = u.inByte k :=
  ⟨_, hostAccess_eq hw hwf he, by simp [State.inByte]⟩

/-! ## `readLine` -/

/-- The flags and the bytes of the input side of `t` are those of `s`. -/
structure State.InputAs (t s : State) : Prop where
  ready : t.inReady = s.inReady
  enabled : t.rxEn = s.rxEn
  bytes : ∀ k, t.inByte k = s.inByte k

theorem State.InputAs.trans {s t u : State} (h : u.InputAs t) (h' : t.InputAs s) : u.InputAs s :=
  ⟨h.ready.trans h'.ready, h.enabled.trans h'.enabled, fun k => (h.bytes k).trans (h'.bytes k)⟩

/-- TP.RDBUF answers with its byte and changes nothing of the input side (40_transport_receive.md R105). -/
theorem hostAccess_tpRdbuf (s : State) (i : BitVec 7) :
    ∃ t, hostAccess (.tpRdbuf i) s = some t ∧ t.out.hRdata = s.inByte i.toNat ∧ t.InputAs s := by
  obtain ⟨t, ht, hout, hready, hen, hbytes⟩ := hostAccess_input (i := .tpRdbuf i) (s := s) rfl rfl rfl
  exact ⟨t, ht, by rw [hout]; rfl, hready, hen, hbytes⟩

/-- One read of `readLine()`, at index `a`, and what follows it. -/
theorem readFrom_read {a : Nat} (ha : a ≤ 126) (s : State) :
    ∃ t : State, t.InputAs s ∧ readFrom (127 - a) s =
      if s.inByte a = Config.term then some (t, [s.inByte a])
      else (readFrom (126 - a) t).map (fun r => (r.1, s.inByte a :: r.2)) := by
  obtain ⟨t, ht, hdata, hinput⟩ := hostAccess_tpRdbuf s (BitVec.ofNat 7 a)
  have hindex : (BitVec.ofNat 7 a).toNat = a := by rw [BitVec.toNat_ofNat]; omega
  rw [hindex] at hdata
  refine ⟨t, hinput, ?_⟩
  rw [show 127 - a = (126 - a) + 1 by omega, readFrom, show 126 - (126 - a) = a by omega, ht, ← hdata]

/-- The reads from index `a` on return the bytes up to and with the first terminator, `d` bytes on, or up to index 126. -/
theorem readFrom_eq {a d : Nat} {s : State} (hlen : a + d ≤ 126) (hopen : ∀ k < a + d, s.inByte k ≠ Config.term)
    (hend : s.inByte (a + d) = Config.term ∨ a + d = 126) :
    ∃ t : State, t.InputAs s ∧ readFrom (127 - a) s = some (t, (List.range' a (d + 1)).map s.inByte) := by
  induction d generalizing a s with
  | zero =>
    rw [Nat.add_zero] at hlen hend
    obtain ⟨t, hinput, hread⟩ := readFrom_read hlen s
    refine ⟨t, hinput, ?_⟩
    rw [hread]
    split
    · rfl
    · next hterm =>
      obtain rfl : a = 126 := hend.resolve_left hterm
      rfl
  | succ d ih =>
    obtain ⟨t, hinput, hread⟩ := readFrom_read (a := a) (by omega) s
    have hbytes : t.inByte = s.inByte := funext hinput.bytes
    rw [← Nat.succ_add_eq_add_succ] at hlen hopen hend
    obtain ⟨u, hinput', hrest⟩ := ih hlen (hbytes ▸ hopen) (hbytes ▸ hend)
    refine ⟨u, hinput'.trans hinput, ?_⟩
    rw [hread, if_neg (hopen a (by omega)), show 126 - a = 127 - (a + 1) by omega, hrest, hbytes]
    rfl

/-- Settles O25: the reads, then TP.ACK, then TP.ARM unless a response will be sent. -/
theorem readLineReturnsTheLine : Obligations.ReadLineReturnsTheLine := by
  intro s n willRespond _ hlen hopen hend
  rw [← term_eq] at hopen hend
  obtain ⟨t, hinput, hread⟩ := readFrom_eq (a := 0) (d := n) (s := s) (by omega) (by simpa using hopen) (by simpa using hend)
  obtain ⟨u, hack, _, hready, hen, hbytes⟩ := hostAccess_input (i := .tpAck) (s := t) rfl rfl rfl
  have hline : readFrom 127 s = some (t, (List.range (n + 1)).map s.inByte) := by rw [List.range_eq_range']; exact hread
  have hbytes' (k : Nat) : u.inByte k = s.inByte k := (hbytes k).trans (hinput.bytes k)
  cases willRespond with
  | true =>
    refine ⟨u, ?_, hready, by simp, fun _ => hen.trans hinput.enabled, hbytes'⟩
    simp [readLine, hline, hack]
  | false =>
    obtain ⟨v, harm, _, hready', hen', hbytes''⟩ := hostAccess_input (i := .tpArm) (s := u) rfl rfl rfl
    refine ⟨v, ?_, hready'.trans hready, fun _ => hen', by simp, fun k => (hbytes'' k).trans (hbytes' k)⟩
    simp [readLine, hline, hack, harm]

end Sys2Proof.Machine
end

section
/-! SUPPORT. The one-wire scripts of 30_encoding.md R88: a command written in IDLE and WAIT after it end in the one-wire unit that
the command alone leaves, so that each script's result is told from the run of its command (42_onewire_primitives.md R144,
43_onewire_bytes.md R170, R171). -/

namespace Sys2Proof.Machine

/-! ## The one-wire unit over a host access -/

theorem State.OneWireAs.symm {s t : State} (h : s.OneWireAs t) : t.OneWireAs s := by
  unfold State.OneWireAs at h
  rw [h]
  rfl

theorem State.OneWireAs.params {t x : State} (h : t.OneWireAs x) : t.params = x.params := by
  rw [h]
  rfl

/-- A host access uses up one input. -/
theorem hostAccess_inputAt {i : Instr} {w : HostWord} {s u : State} (he : exec i (s.beginAccess w) = .next u) (ph : Phase)
    (v : Byte) (k : Nat) : (u.owTick ph v).inputAt k = s.inputAt (k + 1) := by
  obtain ⟨_, hinputs, htick, _⟩ := exec_keeps_run he
  exact State.inputAt_of_tail (by simpa using hinputs) (by simpa using htick) k

/-- In IDLE the sequencer does nothing, so that a host access is its operation. -/
theorem hostAccess_of_idle {i : Instr} {w : HostWord} {s u : State} (hw : encode i = .host w) (hwf : i.wf = true)
    (hidle : s.owPhase = .idle) (he : exec i (s.beginAccess w) = .next u) :
    hostAccess i s = some u ∧ ∀ k, u.inputAt k = s.inputAt (k + 1) := by
  have haccess := hostAccess_eq hw hwf he
  rw [hidle, State.owTick_idle] at haccess
  exact ⟨haccess, hostAccess_inputAt he .idle 0⟩

/-- OW_MASK and OW_DATA are written in IDLE (44_host_access.md R190, R192). -/
theorem hostAccess_owSetmask {s : State} (hidle : s.owPhase = .idle) (m : Byte) :
    ∃ t, hostAccess (.owSetmask m) s = some t ∧ (∀ k, t.inputAt k = s.inputAt (k + 1)) ∧ t.params = s.params ∧
      t.owPhase = .idle ∧ t.owMask = m ∧ t.owPresent = s.owPresent ∧ t.owRdbit = s.owRdbit :=
  have he := exec_owSetmask_of_idle (s := s.beginAccess (hostWord true 0x81#8 m)) hidle m
  have ⟨ht, hinputs⟩ := hostAccess_of_idle (i := .owSetmask m) rfl rfl hidle he
  ⟨_, ht, hinputs, rfl, hidle, rfl, rfl, rfl⟩

theorem hostAccess_owSetdata {s : State} (hidle : s.owPhase = .idle) (d : Byte) :
    ∃ t, hostAccess (.owSetdata d) s = some t ∧ (∀ k, t.inputAt k = s.inputAt (k + 1)) ∧ t.params = s.params ∧
      t.owPhase = .idle ∧ t.owMask = s.owMask ∧ t.owData = d ∧ t.owPresent = s.owPresent ∧ t.owRdbit = s.owRdbit :=
  have he := exec_owSetdata_of_idle (s := s.beginAccess (hostWord true 0x82#8 d)) hidle d
  have ⟨ht, hinputs⟩ := hostAccess_of_idle (i := .owSetdata d) rfl rfl hidle he
  ⟨_, ht, hinputs, rfl, hidle, rfl, rfl, rfl, rfl⟩

/-- OW_STAT and OW_DATA are read in IDLE (44_host_access.md R193, R194). -/
theorem hostAccess_owGetstat_of_idle {s : State} (hidle : s.owPhase = .idle) :
    ∃ t, hostAccess .owGetstat s = some t ∧ t.out.hRdata = s.owStat ∧ t.OneWireAs s :=
  ⟨_, (hostAccess_of_idle (i := .owGetstat) rfl rfl hidle rfl).1, rfl, rfl⟩

theorem hostAccess_owGetdata_of_idle {s : State} (hidle : s.owPhase = .idle) :
    ∃ t, hostAccess .owGetdata s = some t ∧ t.out.hRdata = s.owData ∧ t.OneWireAs s :=
  ⟨_, (hostAccess_of_idle (i := .owGetdata) rfl rfl hidle rfl).1, rfl, rfl⟩

/-! ## WAIT -/

/-- An action without a host access leaves the one-wire unit. -/
theorem TickAction.oneWire {s u : State} {i : Input} (h : TickAction s i u) (hh : i.hReq = false) : u.OneWireAs s := by
  have noWrite {addr : Byte} : ¬ i.writes addr = true := fun hw => by simp [((i.writes_iff _).mp hw).1] at hh
  cases h with
  | nothing => rfl
  | answer _ hreq => simp [hreq] at hh
  | accept _ _ hc => exact absurd hc.1 noWrite
  | setMask hw | setData hw | control hw | push hw => exact absurd hw noWrite
  | receive => obtain ⟨_, _, _, _, hr⟩ := (s.begin i).receive_frame i.rxData; rw [hr]; rfl
  | report => obtain ⟨_, _, _, _, _, hn⟩ := (s.begin i).sendNext_frame; rw [hn]; rfl

/-- Without a host access an idle one-wire unit stays as it is. -/
theorem OneWireAfter.idle {n : Nat} {s x : State} (h : OneWireAfter n s x) (hrst : NoReset n s)
    (hh : ∀ k < n, (s.inputAt k).hReq = false) (hidle : s.owPhase = .idle) : s.OneWireAs x := by
  induction n generalizing s with
  | zero =>
    obtain ⟨t, ht, hx⟩ := h
    cases ht
    exact hx
  | succ n ih =>
    obtain ⟨s', hs⟩ := step_completes s
    have hsame := (step_of_idle hrst.head hidle hs).oneWire (hh 0 (Nat.succ_pos n))
    obtain ⟨hphase, _⟩ := hsame.elements
    refine hsame.symm.trans (ih ?_ (hrst.tail hs) (fun k hk => ?_) (hphase.trans hidle))
    · rwa [OneWireAfter, ← afterTicks_succ hs]
    · rw [step_inputAt hs]
      exact hh (k + 1) (Nat.succ_lt_succ hk)

/-- The next `n` ticks of `q` have no host access and no reset, and the line levels of those of `s`. -/
def Undisturbed (n : Nat) (q s : State) : Prop := ∀ k < n, q.inputAt k = (s.inputAt k).withoutAccess

theorem Undisturbed.noReset {n : Nat} {q s : State} (h : Undisturbed n q s) : NoReset n q := fun k hk => by
  rw [h k hk]
  rfl

/-- A poll of WAIT is a tick of the one-wire unit as any other (20_memory.md R72), and WAIT goes on if the unit was busy at its
start (30_encoding.md R88). -/
theorem waitIdle_succ (fuel : Nat) (s : State) :
    ∃ t, waitIdle (fuel + 1) s = (if s.owPhase.busy then waitIdle fuel t else some t) ∧
      t.OneWireAs (s.owTick s.owPhase (s.inputAt 0).owIn) ∧ ∀ k, t.inputAt k = s.inputAt (k + 1) := by
  have hpoll : exec .owGetstat (s.beginAccess (hostWord false 0x83#8 0x00#8)) =
      .next ((s.beginAccess (hostWord false 0x83#8 0x00#8)).answer s.owStat) := rfl
  have hunit : ((s.beginAccess (hostWord false 0x83#8 0x00#8)).answer s.owStat).OneWireAs s := rfl
  obtain ⟨hbusy, _⟩ := s.owStat_fields
  refine ⟨_, ?_, hunit.owTick _, hostAccess_inputAt hpoll s.owPhase (s.inputAt 0).owIn⟩
  rw [waitIdle, hostAccess_eq (i := .owGetstat) rfl rfl hpoll, ← hbusy]
  simp only [State.owTick_keeps]
  rfl

/-- WAIT ends with the poll of an idle one-wire unit. -/
theorem waitIdle_of_idle {s : State} (hidle : s.owPhase = .idle) (fuel : Nat) :
    ∃ t, waitIdle (fuel + 1) s = some t ∧ t.OneWireAs s := by
  obtain ⟨t, ht, hunit, _⟩ := waitIdle_succ fuel s
  rw [hidle] at ht hunit
  exact ⟨t, ht, hunit⟩

/-- WAIT ends in the one-wire unit that stands idle after `n` undisturbed ticks, as once idle the unit stays as it is. -/
theorem waitIdle_eq {n fuel : Nat} {s q x : State} (hunit : s.OneWireAs q) (hinputs : Undisturbed n q s)
    (hrun : OneWireAfter n q x) (hx : x.owPhase = .idle) (hfuel : n < fuel) :
    ∃ t, waitIdle fuel s = some t ∧ t.OneWireAs x := by
  induction n generalizing s q fuel with
  | zero =>
    obtain ⟨q', hq, hqx⟩ := hrun
    cases hq
    have hsx := hunit.trans hqx
    obtain ⟨hphase, _⟩ := hsx.elements
    obtain ⟨fuel, rfl⟩ := Nat.exists_eq_add_one_of_ne_zero (Nat.ne_zero_of_lt hfuel)
    obtain ⟨t, ht, hts⟩ := waitIdle_of_idle (hphase.trans hx) fuel
    exact ⟨t, ht, hts.trans hsx⟩
  | succ n ih =>
    obtain ⟨fuel, rfl⟩ := Nat.exists_eq_add_one_of_ne_zero (Nat.ne_zero_of_lt hfuel)
    obtain ⟨hphase, _⟩ := hunit.elements
    by_cases hidle : s.owPhase = .idle
    · obtain ⟨t, ht, hts⟩ := waitIdle_of_idle hidle fuel
      have hquiet (k : Nat) (hk : k < n + 1) : (q.inputAt k).hReq = false := by rw [hinputs k hk]; rfl
      exact ⟨t, ht, hts.trans (hunit.trans (hrun.idle hinputs.noReset hquiet (hphase ▸ hidle)))⟩
    · obtain ⟨t, ht, hticked, htinputs⟩ := waitIdle_succ fuel s
      obtain ⟨q', hq⟩ := step_completes q
      have hqticked := step_oneWire hinputs.noReset.head (hphase ▸ hidle) hq
      have hlevel : (q.inputAt 0).owIn = (s.inputAt 0).owIn := by rw [hinputs 0 (Nat.succ_pos n)]; rfl
      rw [hlevel] at hqticked
      have htq := (hticked.trans (hunit.owTick _)).trans hqticked.symm
      rw [ht, if_pos ((Phase.busy_iff _).mpr hidle)]
      refine ih htq (fun k hk => ?_) ?_ (by omega)
      · rw [step_inputAt hq, htinputs, hinputs (k + 1) (by omega)]
      · rwa [OneWireAfter, ← afterTicks_succ hq]

/-! ## A command and WAIT -/

/-- The word of a command (30_encoding.md R83). -/
def commandWord (op : OwOp) : HostWord := hostWord true 0x80#8 (op.code.setWidth 8)

/-- The state with the command in the next tick and no host access in the `n` ticks after, the line levels as they are: what a
script's command and its WAIT come to. -/
def State.commanded (s : State) (op : OwOp) (n : Nat) : State :=
  { s with inputs :=
      (s.inputAt 0).withHostWord (commandWord op) :: (List.range n).map (fun k => (s.inputAt (k + 1)).withoutAccess) }

@[simp] theorem State.commanded_keeps (s : State) (op : OwOp) (n : Nat) :
    (s.commanded op n).params = s.params ∧ (s.commanded op n).owPhase = s.owPhase ∧
    (s.commanded op n).owMask = s.owMask ∧ (s.commanded op n).owData = s.owData :=
  ⟨rfl, rfl, rfl, rfl⟩

theorem State.inputAt_commanded (s : State) (op : OwOp) {n k : Nat} (hk : k < n) :
    (s.commanded op n).inputAt (k + 1) = (s.inputAt (k + 1)).withoutAccess := by
  simp [State.inputAt, State.commanded, hk]

theorem State.owIn_commanded (s : State) (op : OwOp) {n k : Nat} (hk : k ≤ n) :
    ((s.commanded op n).inputAt k).owIn = (s.inputAt k).owIn := by
  cases k with
  | zero => rfl
  | succ k => rw [s.inputAt_commanded op hk]; rfl

theorem State.noReset_commanded (s : State) (op : OwOp) (n : Nat) : NoReset (n + 1) (s.commanded op n) := by
  rintro (_ | k) hk
  · rfl
  · rw [s.inputAt_commanded op (by omega)]
    rfl

theorem State.commands_commanded (s : State) (op : OwOp) (n : Nat) : ((s.commanded op n).inputAt 0).commands op := by
  have hinput : (s.commanded op n).inputAt 0 = (s.inputAt 0).withHostWord (commandWord op) := rfl
  rw [hinput]
  simp [Input.commands, Input.writes, Input.withHostWord, commandWord]

/-- A command written in IDLE and WAIT end in the one-wire unit in which the command's own run ends. -/
theorem command_waitIdle {i : Instr} {op : OwOp} {n fuel : Nat} {s x : State} (hop : op ≠ .noCommand)
    (hi : decodeCommand (op.code.setWidth 8) = i) (hw : encode i = .host (commandWord op)) (hidle : s.owPhase = .idle)
    (hrun : OneWireAfter (1 + n) (s.commanded op n) x) (hx : x.owPhase = .idle) (hfuel : n < fuel) :
    ∃ t u, hostAccess i s = some t ∧ waitIdle fuel t = some u ∧ u.OneWireAs x := by
  subst hi
  obtain ⟨ht, htinputs⟩ :=
    hostAccess_of_idle hw (decodeCommand_wf _) hidle (exec_decodeCommand_code hop (s := s.beginAccess _) hidle)
  obtain ⟨q, hq, hqunit⟩ := OneWireAfter.accept hop (s := s.commanded op n) hidle (s.commands_commanded op n) rfl
  have hunit : ((s.beginAccess (commandWord op)).accept op).OneWireAs q :=
    State.OneWireAs.trans (t := (s.commanded op n).accept op) rfl hqunit.symm
  have hinputs : Undisturbed n q ((s.beginAccess (commandWord op)).accept op) := fun k hk => by
    rw [afterTicks_inputAt hq, Nat.add_comm, s.inputAt_commanded op hk, htinputs]
  have hrest : OneWireAfter n q x := by rwa [OneWireAfter, ← afterTicks_add hq]
  obtain ⟨u, hu, hux⟩ := waitIdle_eq hunit hinputs hrest hx hfuel
  exact ⟨_, u, ht, hu, hux⟩

/-! ## `presenceDetect` -/

/-- The one-wire unit at the end of an OW.RESET accepted in the next tick: OW_PRESENT is what the sample tick shows
(42_onewire_primitives.md R144). -/
def resetDone (s : State) : State :=
  { s.accept .reset with
    owPhase := .idle
    owPresent := present (s.inputAt (1 + s.params.tDrv .reset + s.params.timing.sampleReset)).owIn s.owMask }

/-- The sample of OW.RESET and the end of its primitive (42_onewire_primitives.md R142, R143). -/
theorem endPrimitive_reset (s : State) :
    ((s.accept .reset).toRelease.sampledBy (fun k => (s.inputAt (1 + s.params.tDrv .reset + k)).owIn)
      (s.params.tRel .reset)).endPrimitive = resetDone s := by
  have hsmp : s.params.tSmp .reset = some s.params.timing.sampleReset := rfl
  rw [State.sampledBy_of_lt (x := (s.accept .reset).toRelease) hsmp (Params.tSmp_lt_tRel s.params hsmp)]
  rfl

/-- OW.RESET takes its `T_DRV + T_REL` ticks. -/
theorem OneWireAfter.reset_ends {N : Nat} {s : State} (hidle : s.owPhase = .idle) (hc : (s.inputAt 0).commands .reset)
    (hrst : NoReset N s) (hN : 1 + s.params.tDrv .reset + s.params.tRel .reset ≤ N) :
    OneWireAfter (1 + s.params.tDrv .reset + s.params.tRel .reset) s (resetDone s) :=
  have hbegins := OneWireAfter.accept (op := .reset) (by decide) hidle hc (hrst 0 (by omega))
  endPrimitive_reset s ▸ hbegins.primitive_ends hrst hN rfl rfl

/-- OW.RESET written in IDLE, and WAIT. -/
theorem owReset_waitIdle {s : State} {fuel : Nat} (hidle : s.owPhase = .idle)
    (hfuel : s.params.tDrv .reset + s.params.tRel .reset < fuel) :
    ∃ t u, hostAccess .owReset s = some t ∧ waitIdle fuel t = some u ∧ u.owPhase = .idle ∧ u.owMask = s.owMask ∧
      u.owPresent = present (s.inputAt (1 + s.params.tDrv .reset + s.params.timing.sampleReset)).owIn s.owMask := by
  have hsample := Params.tSmp_lt_tRel s.params (q := .reset) rfl
  have hrun := OneWireAfter.reset_ends (s := s.commanded .reset (s.params.tDrv .reset + s.params.tRel .reset)) hidle
    (s.commands_commanded _ _) (s.noReset_commanded _ _) (by simp; omega)
  simp only [State.commanded_keeps, Nat.add_assoc] at hrun
  obtain ⟨t, u, ht, hu, hunit⟩ := command_waitIdle (op := .reset) (by decide) rfl rfl hidle hrun rfl hfuel
  obtain ⟨hphase, _, _, _, _, _, hmask, _, hpresent, _⟩ := hunit.elements
  simp only [resetDone, State.commanded_keeps] at hpresent
  rw [s.owIn_commanded .reset (by omega)] at hpresent
  exact ⟨t, u, ht, hu, hphase, hmask, hpresent⟩

/-- Settles O47: the mask, the command, WAIT and the status read, one after the other. -/
theorem presenceDetectCompletesWithTheSample : Obligations.PresenceDetectCompletesWithTheSample := by
  intro s m fuel hidle hfuel
  obtain ⟨s1, hsetmask, hinputs, hparams, hidle1, hmask1, _⟩ := hostAccess_owSetmask hidle m
  obtain ⟨s2, s3, hreset, hwait, hidle3, hmask3, hpresent3⟩ := owReset_waitIdle hidle1 (hparams ▸ hfuel)
  obtain ⟨t, hstat, hdata, hunit⟩ := hostAccess_owGetstat_of_idle hidle3
  obtain ⟨hphase, _, _, _, _, _, hmask, _, hpresent, _⟩ := hunit.elements
  obtain ⟨_, _, hbit, _⟩ := s3.owStat_fields
  have hsample : s3.owPresent = present (s.inputAt (2 + s.params.tDrv .reset + s.params.timing.sampleReset)).owIn m := by
    rw [hpresent3, hmask1, hparams, hinputs, Nat.add_right_comm, Nat.add_right_comm 1]
  refine ⟨t, ?_, hphase.trans hidle3, hmask.trans (hmask3.trans hmask1), hpresent.trans hsample⟩
  rw [← hsample, ← hbit, ← hdata]
  simp only [presenceDetect, hsetmask, hreset, hwait, hstat, Option.bind_eq_bind, Option.bind_some]

/-! ## `receiveByte` -/

/-- OW.RECVBYTE written in IDLE, and WAIT. -/
theorem owRecvbyte_waitIdle {s : State} {fuel : Nat} (hidle : s.owPhase = .idle)
    (hfuel : 8 * (s.params.tDrv .read + s.params.tRel .read) + 7 * s.params.tGap < fuel) :
    ∃ t u, hostAccess .owRecvbyte s = some t ∧ waitIdle fuel t = some u ∧ u.owPhase = .idle ∧ u.owBitn = 8#4 ∧
      ∀ k < 8, u.owData.getLsbD k = sampleOfSlot s k := by
  have hrst := s.noReset_commanded .recvbyte (8 * (s.params.tDrv .read + s.params.tRel .read) + 7 * s.params.tGap)
  obtain ⟨x, hx, hxidle, hxbitn, hxbits, _⟩ :=
    recvbyteCollectsTheSampledBits (s.commanded .recvbyte _) hidle (s.commands_commanded .recvbyte _) hrst
  have hrun : OneWireAfter (1 + (8 * (s.params.tDrv .read + s.params.tRel .read) + 7 * s.params.tGap)) _ x :=
    ⟨x, Nat.add_comm 1 _ ▸ hx, rfl⟩
  obtain ⟨t, u, ht, hu, hunit⟩ := command_waitIdle (op := .recvbyte) (by decide) rfl rfl hidle hrun hxidle hfuel
  obtain ⟨hphase, _, _, _, hbitn, _, _, hdata, _⟩ := hunit.elements
  refine ⟨t, u, ht, hu, hphase.trans hxidle, hbitn.trans hxbitn, fun k hk => ?_⟩
  rw [hdata, hxbits k hk]
  have hsample := Params.tSmp_lt_tRel s.params (q := .read) rfl
  have hslots : k * (s.params.tDrv .read + s.params.tRel .read + s.params.tGap) ≤
      7 * (s.params.tDrv .read + s.params.tRel .read + s.params.tGap) := Nat.mul_le_mul_right _ (by omega)
  simp only [sampleOfSlot, State.commanded_keeps]
  rw [s.owIn_commanded .recvbyte (by omega)]

/-- Settles O49: the mask, the command, WAIT and the read of OW_DATA, one after the other. -/
theorem receiveBytePseudoOperationReturnsTheBits : Obligations.ReceiveBytePseudoOperationReturnsTheBits := by
  intro s m fuel hidle hfuel
  obtain ⟨s1, hsetmask, hinputs, hparams, hidle1, hmask1, _⟩ := hostAccess_owSetmask hidle m
  obtain ⟨s2, s3, hrecv, hwait, hidle3, hbitn3, hbits3⟩ := owRecvbyte_waitIdle hidle1 (hparams ▸ hfuel)
  obtain ⟨t, hread, hdata, hunit⟩ := hostAccess_owGetdata_of_idle hidle3
  obtain ⟨hphase, _, _, _, hbitn, _, _, hdata', _⟩ := hunit.elements
  refine ⟨t, t.out.hRdata, ?_, hphase.trans hidle3, hdata'.trans hdata.symm, hbitn.trans hbitn3, fun k hk => ?_⟩
  · simp only [receiveByte, hsetmask, hrecv, hwait, hread, Option.bind_eq_bind, Option.bind_some]
  · rw [hdata, hbits3 k hk, sampleOfSlot, hmask1, hparams, hinputs]
    congr 3
    omega

/-! ## `sendByte` -/

/-- The primitive of slot `k` of an OW.SENDBYTE (43_onewire_bytes.md R170). -/
def sendPrim (s : State) (k : Nat) : Prim := writePrim (s.owData.getLsbD k)

/-- The one-wire unit of an OW.SENDBYTE accepted in the next tick at the start of its slot `k`. -/
def sendSlot (s : State) (k : Nat) : State :=
  { s.accept .sendbyte with owBitn := BitVec.ofNat 4 k, owPrim := sendPrim s k }

/-- The same unit at the end of slot `k`: in the gap, or idle after the eighth slot (43_onewire_bytes.md R172). -/
def sendSlotDone (s : State) (k : Nat) : State :=
  { sendSlot s k with owBitn := BitVec.ofNat 4 (k + 1), owPhase := if k = 7 then .idle else .gap }

/-- A write primitive takes no sample (42_onewire_primitives.md R142). -/
theorem Params.tSmp_writePrim (p : Params) (bit : Bool) : p.tSmp (writePrim bit) = none := by
  cases bit <;> rfl

/-- The end of slot `k` (42_onewire_primitives.md R143). -/
theorem endPrimitive_sendSlot (s : State) (v : Nat → Byte) {k : Nat} (hk : k ≤ 7) :
    ((sendSlot s k).toRelease.sampledBy v (s.params.tRel (sendPrim s k))).endPrimitive = sendSlotDone s k := by
  have hnone : (sendSlot s k).toRelease.params.tSmp (sendSlot s k).toRelease.owPrim = none :=
    Params.tSmp_writePrim s.params _
  have hbitn : BitVec.ofNat 4 k + 1#4 = BitVec.ofNat 4 (k + 1) := by simp [BitVec.ofNat_add]
  have hlast : BitVec.ofNat 4 (k + 1) = 8#4 ↔ k = 7 := by
    simp only [← BitVec.toNat_inj, BitVec.toNat_ofNat]
    omega
  rw [State.sampledBy_of_not_lt (by simp [hnone])]
  simp [State.endPrimitive, State.toRelease, sendSlotDone, sendSlot, State.accept, OwOp.isByteOp, hbitn, hlast]

/-- A slot that has begun ends after the ticks of its primitive. -/
theorem OneWireAfter.sendSlot_ends {k m N : Nat} {s : State} (h : OneWireAfter m s (sendSlot s k)) (hk : k ≤ 7)
    (hrst : NoReset N s) (hN : m + s.params.tDrv (sendPrim s k) + s.params.tRel (sendPrim s k) ≤ N) :
    OneWireAfter (m + s.params.tDrv (sendPrim s k) + s.params.tRel (sendPrim s k)) s (sendSlotDone s k) :=
  endPrimitive_sendSlot s _ hk ▸ h.primitive_ends hrst hN rfl rfl

/-- After the gap the next slot begins, with the primitive of its bit (43_onewire_bytes.md R172). -/
theorem sendSlot_after_gap (s : State) {k : Nat} (hk : k < 7) :
    { sendSlotDone s k with
      owCnt := 0, owPhase := .drive, owPrim := slotPrim .sendbyte s.owData (BitVec.ofNat 4 (k + 1)) } =
    sendSlot s (k + 1) := by
  have hslot : (BitVec.ofNat 4 (k + 1)).toNat = k + 1 := by
    rw [BitVec.toNat_ofNat]
    omega
  rw [slotPrim, hslot]
  rfl

/-- Slot `k` begins at its time of 43_onewire_bytes.md R174. -/
theorem OneWireAfter.sendSlot_begins {k N : Nat} {s : State} (hidle : s.owPhase = .idle)
    (hc : (s.inputAt 0).commands .sendbyte) (hrst : NoReset N s) (hk : k ≤ 7)
    (hN : 1 + slotStart s.params (sendPrim s) k ≤ N) :
    OneWireAfter (1 + slotStart s.params (sendPrim s) k) s (sendSlot s k) := by
  induction k with
  | zero => exact OneWireAfter.accept (op := .sendbyte) (by decide) hidle hc (hrst 0 (by omega))
  | succ k ih =>
    have hticks : 1 + slotStart s.params (sendPrim s) (k + 1) = 1 + slotStart s.params (sendPrim s) k +
        s.params.tDrv (sendPrim s k) + s.params.tRel (sendPrim s k) + s.params.tGap := by
      rw [slotStart]
      omega
    rw [hticks] at hN ⊢
    have hended := (ih (by omega) (by omega)).sendSlot_ends (by omega) hrst (by omega)
    have hgap : (sendSlotDone s k).owPhase = .gap := if_neg (by omega)
    rw [← sendSlot_after_gap s (by omega)]
    exact hended.gap_ends hrst hN hgap rfl

/-- OW.SENDBYTE ends with its eighth slot (43_onewire_bytes.md R170). -/
theorem OneWireAfter.sendbyte_ends {N : Nat} {s : State} (hidle : s.owPhase = .idle)
    (hc : (s.inputAt 0).commands .sendbyte) (hrst : NoReset N s)
    (hN : 1 + slotStart s.params (sendPrim s) 7 + s.params.tDrv (sendPrim s 7) + s.params.tRel (sendPrim s 7) ≤ N) :
    OneWireAfter (1 + slotStart s.params (sendPrim s) 7 + s.params.tDrv (sendPrim s 7) + s.params.tRel (sendPrim s 7)) s
      (sendSlotDone s 7) :=
  (OneWireAfter.sendSlot_begins hidle hc hrst le_rfl (by omega)).sendSlot_ends le_rfl hrst hN

/-- If no slot of a byte command takes more than `most` ticks, slot `k` begins no later than `k` such slots and gaps on
(43_onewire_bytes.md R174). -/
theorem slotStart_le {p : Params} {slot : Nat → Prim} {most : Nat} (h : ∀ j, p.tDrv (slot j) + p.tRel (slot j) ≤ most)
    (k : Nat) : slotStart p slot k ≤ k * (most + p.tGap) := by
  induction k with
  | zero => exact Nat.zero_le _
  | succ k ih =>
    have hslot := h k
    rw [slotStart, Nat.succ_mul]
    omega

/-- A slot of OW.SENDBYTE takes no more ticks than the longer of the two write primitives. -/
theorem sendPrim_ticks_le (s : State) (k : Nat) :
    s.params.tDrv (sendPrim s k) + s.params.tRel (sendPrim s k) ≤
      max (s.params.tDrv .write0 + s.params.tRel .write0) (s.params.tDrv .write1 + s.params.tRel .write1) := by
  unfold sendPrim
  cases s.owData.getLsbD k with
  | false => exact le_max_left _ _
  | true => exact le_max_right _ _

/-- OW.SENDBYTE written in IDLE, and WAIT. -/
theorem owSendbyte_waitIdle {s : State} {fuel : Nat} (hidle : s.owPhase = .idle)
    (hfuel : 8 * max (s.params.tDrv .write0 + s.params.tRel .write0) (s.params.tDrv .write1 + s.params.tRel .write1) +
      7 * s.params.tGap < fuel) :
    ∃ t u, hostAccess .owSendbyte s = some t ∧ waitIdle fuel t = some u ∧ u.OneWireAs (sendSlotDone s 7) := by
  have hslots := slotStart_le (sendPrim_ticks_le s) 7
  have hlast := sendPrim_ticks_le s 7
  obtain ⟨n, hn⟩ : ∃ n, 1 + n =
      1 + slotStart s.params (sendPrim s) 7 + s.params.tDrv (sendPrim s 7) + s.params.tRel (sendPrim s 7) :=
    ⟨_, by rw [Nat.add_assoc 1, Nat.add_assoc 1]⟩
  have hrun := OneWireAfter.sendbyte_ends (s := s.commanded .sendbyte n) hidle (s.commands_commanded .sendbyte n)
    (s.noReset_commanded .sendbyte n) (hn.symm.trans (Nat.add_comm 1 n)).le
  obtain ⟨t, u, ht, hu, hunit⟩ :=
    command_waitIdle (op := .sendbyte) (fuel := fuel) (by decide) rfl rfl hidle (hn ▸ hrun) rfl (by omega)
  exact ⟨t, u, ht, hu, hunit⟩

/-- Settles O48: the mask, the data byte, the command and WAIT, one after the other. -/
theorem sendBytePseudoOperationCompletes : Obligations.SendBytePseudoOperationCompletes := by
  intro s m b fuel hidle hfuel
  obtain ⟨s1, hsetmask, _, hparams1, hidle1, hmask1, hpresent1, hrdbit1⟩ := hostAccess_owSetmask hidle m
  obtain ⟨s2, hsetdata, _, hparams2, hidle2, hmask2, hdata2, hpresent2, hrdbit2⟩ := hostAccess_owSetdata hidle1 b
  have hparams : s2.params = s.params := hparams2.trans hparams1
  have hmask : s2.owMask = m := hmask2.trans hmask1
  obtain ⟨s3, t, hsend, hwait, hunit⟩ := owSendbyte_waitIdle hidle2 (hparams ▸ hfuel)
  obtain ⟨hphase, hop, _, _, hbitn, hlmask, htmask, hdata, hpresent, hrdbit⟩ := hunit.elements
  refine ⟨t, ?_, hphase, hop, htmask.trans hmask, hlmask.trans hmask, hdata.trans hdata2, hbitn,
    hpresent.trans (hpresent2.trans hpresent1), hrdbit.trans (hrdbit2.trans hrdbit1)⟩
  simp only [sendByte, hsetmask, hsetdata, hsend, hwait, Option.bind_eq_bind, Option.bind_some]

end Sys2Proof.Machine
end

section
/-! SUPPORT. The receive side of the transport by itself (40_transport_receive.md R100 to R105): a receive event where it may
occur, the ticks in which an offered byte is not taken, the flag commands; and the reads (44_host_access.md R191 to R198). -/

namespace Sys2Proof.Machine

/-! ## RX.EVENT -/

/-- Where a receive event may occur, the byte is taken (40_transport_receive.md R101). -/
theorem exec_rxEvent_of_open {s : State} (h : s.rxOpen = true) (b : Byte) : exec (.rxEvent b) s = .next (s.receive b) := by
  simp [exec, execRxEvent, h]

/-- The byte that ends a line goes to the cursor, and the end mark behind it (40_transport_receive.md R100). -/
theorem State.receive_inByte_of_end {s : State} {b : Byte} (hcur : s.inCur.toNat ≤ 126)
    (hend : b = 0x0A#8 ∨ s.inCur.toNat + 1 = 127) (k : Nat) :
    (s.receive b).inByte k =
      if k = s.inCur.toNat + 1 then s.params.endMark else if k = s.inCur.toNat then b else s.inByte k := by
  rw [State.receive_of_end hend, State.endInputLine_inByte, State.storeIn_inByte, toNat_cursor_succ hcur,
    State.storeIn_params]

/-- A byte inside a line goes to the cursor. -/
theorem State.receive_inByte_of_inside {s : State} {b : Byte} (hb : b ≠ 0x0A#8) (hlast : s.inCur.toNat + 1 ≠ 127)
    (k : Nat) : (s.receive b).inByte k = if k = s.inCur.toNat then b else s.inByte k := by
  rw [State.receive_of_inside hb hlast, State.setInCur_inByte, State.storeIn_inByte]

/-- Settles O19: the frame of a receive event, and its two cases. -/
theorem receiveEventEffect : Obligations.ReceiveEventEffect := by
  refine ⟨decode_receiveWord, fun s b hen hready hdrive hrelease hcur => ?_⟩
  have hopen : s.rxOpen = true := s.rxOpen_iff.mpr ⟨hen, hready, hdrive, hrelease⟩
  refine ⟨s.receive b, exec_rxEvent_of_open hopen b, ?frame, fun hend => ?ends, fun hlast hb => ?inside⟩
  case frame =>
    obtain ⟨_, _, _, _, hframe⟩ := s.receive_frame b
    rw [hframe]
  case ends =>
    refine ⟨?_, ?_, ?_, State.receive_inByte_of_end hcur hend.symm⟩ <;> rw [State.receive_of_end hend.symm] <;> rfl
  case inside =>
    refine ⟨?_, ?_, ?_, State.receive_inByte_of_inside hb hlast⟩ <;> rw [State.receive_of_inside hb hlast]
    · exact toNat_cursor_succ hcur
    · exact hready
    · exact hen

/-! ## Whether an offered byte is taken -/

/-- `rx_ready` holds where none of the conditions of 40_transport_receive.md R101 fails, outside a reset tick. -/
theorem State.rxReady_iff (s : State) (i : Input) :
    s.rxReady i = true ↔ s.rxOpen = true ∧ i.hReq = false ∧ i.rst = false := by
  simp only [State.rxReady, Bool.and_eq_true, Bool.not_eq_true', and_assoc]

/-- The inputs with another offer of the transceiver. -/
def Input.withOffer (i : Input) (v : Bool) (b : Byte) : Input := { i with rxValid := v, rxData := b }

/-- The beginning of a tick takes the placed inputs off the list. -/
theorem State.begin_placeInput (s : State) (i j : Input) : (s.placeInput i).begin j = s.begin j := rfl

/-- A tick without reset is told by its beginning, its operation and its line levels (00_scope.md R7). -/
theorem step_congr {s t : State} (hs : (s.inputAt 0).rst = false) (ht : (t.inputAt 0).rst = false)
    (hbegin : s.begin (s.inputAt 0) = t.begin (t.inputAt 0))
    (haction : s.action (s.inputAt 0) = t.action (t.inputAt 0)) (howIn : (s.inputAt 0).owIn = (t.inputAt 0).owIn) :
    step s = step t := by
  have hphase : s.owPhase = t.owPhase := by simpa using congrArg State.owPhase hbegin
  cases hop : t.action (t.inputAt 0) with
  | none => rw [step_of_none hs (haction.trans hop), step_of_none ht hop, hbegin, hphase, howIn]
  | some op => rw [step_of_action hs (haction.trans hop), step_of_action ht hop, hbegin, hphase, howIn]

/-- Where `rx_ready` is 0 the offer does not reach the ports, not even by the precedence of a receive event over a report
(60_exceptions.md R224). -/
theorem State.begin_withOffer {s : State} {i : Input} (h : s.rxReady i = false) (v : Bool) (b : Byte) :
    s.begin (i.withOffer v b) = s.begin i := by
  have hready : s.rxReady (i.withOffer v b) = false := h
  have hreport : s.txcReady (i.withOffer v b) = s.txcReady i := by
    simp only [State.txcReady, hready, h, Bool.and_false]
    rfl
  simp only [State.begin, State.portsFor, hready, h, hreport]

/-- Nor the choice of the operation, outside a reset tick. -/
theorem State.action_withOffer {s : State} {i : Input} (hrst : i.rst = false) (h : s.rxReady i = false) (v : Bool)
    (b : Byte) : s.action (i.withOffer v b) = s.action i := by
  cases hh : i.hReq with
  | true => simp [State.action, Input.withOffer, hh]
  | false =>
    have hclosed : s.rxOpen = false := (State.rxReady_eq hrst hh).symm.trans h
    simp [State.action, Input.withOffer, hh, hclosed]

/-- So a tick with `rx_ready` = 0 is the same tick whatever is offered (40_transport_receive.md R101); a reset tick asks for no
operation. -/
theorem step_withOffer {s : State} {i : Input} (h : s.rxReady i = false) (v : Bool) (b : Byte) :
    step (s.placeInput (i.withOffer v b)) = step (s.placeInput i) := by
  have hbegin : (s.placeInput (i.withOffer v b)).begin (i.withOffer v b) = (s.placeInput i).begin i := by
    rw [State.begin_placeInput, State.begin_placeInput, State.begin_withOffer h]
  cases hrst : i.rst with
  | true =>
    rw [step_of_rst (s := s.placeInput (i.withOffer v b)) hrst, step_of_rst (s := s.placeInput i) hrst,
      State.placeInput_inputAt_zero, State.placeInput_inputAt_zero, hbegin]
  | false => exact step_congr hrst hrst hbegin (State.action_withOffer (s := s.placeInput i) hrst h v b) rfl

/-- Settles O20: an offered byte is the tick's action where `rx_ready` holds, and reaches nothing where it does not. -/
theorem receiveEventOccursExactlyWhenReady : Obligations.ReceiveEventOccursExactlyWhenReady := by
  refine ⟨?taken, fun s i v b hclosed => step_withOffer ?closed v b⟩
  case taken =>
    rintro s i rfl hrst
    obtain ⟨t, ht⟩ := step_completes s
    refine ⟨t, ht, ?_, fun hv hready => ?_⟩
    · rw [(step_ready ht).1, State.rxReady, State.rxOpen, Phase.crit_eq, hrst, Bool.not_false, Bool.and_true]
    · rw [(step_ready ht).1, State.rxReady_iff] at hready
      obtain ⟨hopen, hh, _⟩ := hready
      obtain ⟨u, hu, hstep⟩ := step_completes_action hrst (State.action_of_offer hh hv hopen)
      rw [ht] at hstep
      cases hstep
      exact ⟨u, hu, rfl⟩
  case closed =>
    rw [← Bool.not_eq_true, State.rxReady_iff, State.rxOpen_iff]
    rintro ⟨⟨hen, hready, hdrive, hrelease⟩, hh, hrst⟩
    simp [hen, hready, hdrive, hrelease, hh, hrst] at hclosed

/-! ## TP.ACK, TP.ARM, TP.ACKARM -/

/-- A write to TP_CTRL is decoded by its data (30_encoding.md R84). -/
theorem decode_controlWord (d : Byte) : decode (.host (hostWord true 0x85#8 d)) = .instr (decodeControl d) :=
  decode_hostWord true 0x85#8 d

/-- Settles O21: `data[1:0]` chooses the operation, and each operation is its flag writes. -/
theorem ackArmAckarmEffect : Obligations.AckArmAckarmEffect := by
  refine ⟨fun d => ?_, fun s => ⟨rfl, rfl, rfl⟩⟩
  rw [decode_controlWord]
  refine ⟨fun hbits => ?_, fun hbits => ?_, fun hbits => ?_⟩ <;> simp [decodeControl, hbits]

/-! ## The reads -/

/-- A read is decoded by its address, whatever its data field (30_encoding.md R80). -/
theorem decode_readWord (addr d : Byte) : decode (.host (hostWord false addr d)) = .instr (decodeRead addr) :=
  decode_hostWord false addr d

/-- OW.GETSTAT, with the two phase bits told as 10_state.md R38 defines them. -/
theorem State.owStat_eq (s : State) :
    s.owStat = s.owBitn ++ (BitVec.ofBool s.owRdbit ++ (BitVec.ofBool s.owPresent ++
      (BitVec.ofBool (decide (s.owPhase = .drive ∨ s.owPhase = .release)) ++
        BitVec.ofBool (decide (s.owPhase ≠ .idle))))) := by
  rw [State.owStat, Phase.crit_eq, Phase.busy_eq]

/-- Settles O53: the address chooses the read, and the read answers with its register. -/
theorem readsAnswerTheirRegister : Obligations.ReadsAnswerTheirRegister := by
  refine ⟨fun k d => ?words, fun s => ⟨fun k => rfl, rfl, rfl, ?owStat, rfl, rfl, rfl, rfl⟩⟩
  case words =>
    simp only [decode_readWord, decodeRead_window, true_and]
    exact ⟨rfl, rfl, rfl, rfl, rfl, rfl, rfl⟩
  case owStat =>
    rw [← State.owStat_eq]
    rfl

end Sys2Proof.Machine
end

section
/-! SUPPORT. The transmit side of the transport by itself (41_transport_transmit.md R120 to R123): what a push and a
transmit-complete event make of it, and the ticks in which a report is not taken. -/

namespace Sys2Proof.Machine

/-! ## A push, by its cases -/

/-- The push that starts the line: the terminator, or the 127th byte (41_transport_transmit.md R120). -/
theorem State.push_of_end {s : State} {b : Byte} (h : b = Config.term ∨ s.outCur.toNat + 1 = 127) :
    (s.push b).outCur = 0#7 ∧ (s.push b).txEn = true ∧ (s.push b).out.txWr = true ∧
    (s.push b).out.txData = (s.push b).outByte 0 := by
  rw [← succ_eq_lastIndex_iff] at h
  unfold State.push
  split
  · exact ⟨rfl, rfl, rfl, rfl⟩
  · next hb =>
    rw [if_pos (h.resolve_left hb)]
    exact ⟨rfl, rfl, rfl, rfl⟩

/-- A push inside the line. -/
theorem State.push_of_inside {s : State} {b : Byte} (hb : b ≠ Config.term) (hc : s.outCur.toNat + 1 ≠ 127) :
    s.push b = (s.storeOut s.outCur.toNat b).setOutCur (s.outCur + 1#7) := by
  rw [State.push, if_neg hb, if_neg (by rwa [succ_eq_lastIndex_iff])]

/-- A push writes its byte at the cursor, and where it is the 127th, no terminator, the forced terminator at index 127
(41_transport_transmit.md R120). -/
theorem State.push_outByte (s : State) (b : Byte) (k : Nat) :
    (s.push b).outByte k =
      if (b ≠ Config.term ∧ s.outCur.toNat + 1 = 127) ∧ k = 127 then Config.term
      else if k = s.outCur.toNat then b else s.outByte k := by
  by_cases hb : b = Config.term
  · simp [State.push, hb]
  · by_cases hc : s.outCur.toNat + 1 = 127
    · simp [State.push, hb, hc, (succ_eq_lastIndex_iff _).mpr hc, Config.lastIndex]
    · simp [State.push_of_inside hb hc, hc]

theorem exec_tpPush_of_idle {s : State} (h : s.txEn = false) (b : Byte) : exec (.tpPush b) s = .next (s.push b) := by
  simp [exec, execTpPush, h]

/-- Settles O27. -/
theorem pushWhileSendingIsDropped : Obligations.PushWhileSendingIsDropped :=
  fun _ b h => exec_tpPush_of_sending h b

/-- Settles O26: the frame of a push, and its cases. -/
theorem pushEffect : Obligations.PushEffect := by
  refine ⟨decode_hostWord true 0x86#8, pushWhileSendingIsDropped, fun s b hidle hcur => ?_⟩
  refine ⟨s.push b, exec_tpPush_of_idle hidle b, ?frame, fun hend => ?starts, fun hunforced k => ?stored,
    fun hb hlast k => ?forced, fun hb hlast => ?inside⟩
  case frame =>
    obtain ⟨_, _, _, _, _, hframe⟩ := s.push_frame b
    rw [hframe]
  case starts =>
    obtain ⟨hzero, hen, hwr, hdata⟩ := State.push_of_end hend
    refine ⟨hzero, hen, hwr, ?_⟩
    rw [hdata, State.push_outByte, if_neg (by simp)]
    simp [BitVec.toNat_eq, eq_comm]
  case stored =>
    rw [State.push_outByte, if_neg (fun h => hunforced.elim h.1.1 (· h.1.2))]
  case forced => simp [State.push_outByte, term_eq, hb, hlast]
  case inside =>
    rw [State.push_of_inside hb hlast]
    exact ⟨toNat_cursor_succ hcur, hidle, rfl⟩

/-! ## TX.DONE -/

/-- A report before the end of the line loads the next byte (41_transport_transmit.md R122). -/
theorem State.sendNext_of_inside {s : State} (hterm : s.outByte s.outCur.toNat ≠ Config.term)
    (hlast : s.outCur.toNat ≠ 127) :
    s.sendNext = (s.setOutCur (s.outCur + 1#7)).emit (s.outByte (s.outCur.toNat + 1)) :=
  if_pos ⟨hterm, by rwa [Ne, eq_lastIndex_iff]⟩

/-- The report at its end loads none, and ends it. -/
theorem State.sendNext_of_end {s : State} (h : s.outByte s.outCur.toNat = Config.term ∨ s.outCur.toNat = 127) :
    s.sendNext = { s with outCur := 0#7, txEn := false, rxEn := true } :=
  if_neg (by rwa [Ne, Ne, eq_lastIndex_iff, not_and_or, not_not, not_not])

/-- Where a transmit-complete event may occur, the report is taken (41_transport_transmit.md R123). -/
theorem exec_txDone_of_open {s : State} (h : s.txOpen = true) : exec .txDone s = .next s.sendNext := by
  simp [exec, execTxDone, h]

/-- Settles O28: the frame of a transmit-complete event, and its two cases. -/
theorem transmitCompleteEffect : Obligations.TransmitCompleteEffect := by
  refine ⟨decode_reportWord, fun s hen hdrive hrelease => ?_⟩
  have hopen : s.txOpen = true := s.txOpen_iff.mpr ⟨hen, hdrive, hrelease⟩
  refine ⟨s.sendNext, exec_txDone_of_open hopen, ?frame, fun hterm hlast => ?inside, fun hend => ?ends⟩
  case frame =>
    obtain ⟨_, _, _, _, _, hframe⟩ := s.sendNext_frame
    rw [hframe]
  case inside =>
    rw [State.sendNext_of_inside hterm hlast]
    have hcur : s.outCur.toNat ≤ 126 := by have := s.outCur.isLt; omega
    exact ⟨toNat_cursor_succ hcur, hen, rfl, rfl, rfl⟩
  case ends =>
    rw [State.sendNext_of_end hend]
    exact ⟨rfl, rfl, rfl, rfl⟩

/-! ## Whether a report is taken -/

/-- `txc_ready` holds where none of the conditions of 41_transport_transmit.md R123 fails, outside a reset tick. -/
theorem State.txcReady_iff (s : State) (i : Input) :
    s.txcReady i = true ↔
      s.txOpen = true ∧ i.hReq = false ∧ ¬ (i.rxValid = true ∧ s.rxReady i = true) ∧ i.rst = false := by
  simp only [State.txcReady, Bool.and_eq_true, Bool.not_eq_true', ← Bool.not_eq_true, and_assoc]

/-- The inputs with or without a report of the transceiver. -/
def Input.withTxcValid (i : Input) (v : Bool) : Input := { i with txcValid := v }

/-- Where `txc_ready` is 0 a report does not reach the choice of the operation, outside a reset tick. -/
theorem State.action_withTxcValid {s : State} {i : Input} (hrst : i.rst = false) (h : s.txcReady i = false) (v : Bool) :
    s.action (i.withTxcValid v) = s.action i := by
  by_cases hh : i.hReq = true
  · simp [State.action, Input.withTxcValid, hh]
  · rw [Bool.not_eq_true] at hh
    by_cases hrx : i.rxValid = true ∧ s.rxOpen = true
    · simp [State.action, Input.withTxcValid, hh, hrx]
    · have hclosed : s.txOpen = false := by
        rw [← Bool.not_eq_true] at h ⊢
        rw [State.txcReady_iff, State.rxReady_eq hrst hh] at h
        exact fun hopen => h ⟨hopen, hh, hrx, hrst⟩
      simp [State.action, Input.withTxcValid, hh, hrx, hclosed]

/-- So a tick with `txc_ready` = 0 is the same tick whatever is reported (41_transport_transmit.md R123); a reset tick asks for no
operation. -/
theorem step_withTxcValid {s : State} {i : Input} (h : s.txcReady i = false) (v : Bool) :
    step (s.placeInput (i.withTxcValid v)) = step (s.placeInput i) := by
  cases hrst : i.rst with
  | true =>
    rw [step_of_rst (s := s.placeInput (i.withTxcValid v)) hrst, step_of_rst (s := s.placeInput i) hrst]
    rfl
  | false => exact step_congr hrst hrst rfl (State.action_withTxcValid (s := s.placeInput i) hrst h v) rfl

/-- Settles O29: a report is the tick's action where `txc_ready` holds, and reaches nothing where it does not. -/
theorem transmitCompleteOccursExactlyWhenReady : Obligations.TransmitCompleteOccursExactlyWhenReady := by
  refine ⟨?taken, fun s i v hclosed => step_withTxcValid ?closed v⟩
  case taken =>
    rintro s i rfl hrst
    obtain ⟨t, ht⟩ := step_completes s
    obtain ⟨hrx, htx⟩ := step_ready ht
    refine ⟨t, ht, ?_, fun hv hready => ?_⟩
    · rw [htx, hrx, State.txcReady, State.txOpen, Phase.crit_eq, hrst, Bool.not_false, Bool.and_true]
    · rw [htx, State.txcReady_iff] at hready
      obtain ⟨hopen, hh, hoffer, _⟩ := hready
      rw [State.rxReady_eq hrst hh] at hoffer
      obtain ⟨u, hu, hstep⟩ := step_completes_action hrst (State.action_of_report hh hoffer hv hopen)
      rw [ht] at hstep
      cases hstep
      exact ⟨u, hu, rfl⟩
  case closed =>
    rw [← Bool.not_eq_true, State.txcReady_iff, State.txOpen_iff]
    rintro ⟨⟨hen, hdrive, hrelease⟩, hh, hoffer, hrst⟩
    have hbyte : i.rxValid = true ∧ s.rxEn = true ∧ s.inReady = false := by
      simpa [hen, hdrive, hrelease, hh, hrst] using hclosed
    obtain ⟨hv, hrx, hready⟩ := hbyte
    exact hoffer ⟨hv, (s.rxReady_iff i).mpr ⟨s.rxOpen_iff.mpr ⟨hrx, hready, hdrive, hrelease⟩, hh, hrst⟩⟩

/-- Settles O32: a run from a state that sends nothing and owes no report balances loads and reports (O31), so that in a tick
with TX_EN = 0 no loaded byte is unreported. -/
theorem noReportIsRaisedWhileNotSending : Obligations.NoReportIsRaisedWhileNotSending := by
  intro n s t hidle hhonest hrst ht hdone
  have hbalance := oneReportForEachLoadedByte n s t hidle hrst ht
  rw [← Bool.not_eq_true]
  intro hraised
  have howed := hhonest n (Nat.lt_succ_self n) hraised
  simp [hdone] at hbalance
  omega

end Sys2Proof.Machine
end

section
/-! SUPPORT. The transmit side over a tick and over a run: what keeps it, and the line in flight on its way out, a byte for each
report, up to its terminator (41_transport_transmit.md R121, R122, 20_memory.md R62). -/

namespace Sys2Proof.Machine

/-! ## What keeps the transmit side -/

/-- The transmit side of `t` is that of `s`: TX_EN, OUT_CUR and every byte of OUT_BUF. -/
structure State.OutputAs (t s : State) : Prop where
  sending : t.txEn = s.txEn
  cursor : t.outCur = s.outCur
  bytes : ∀ k, t.outByte k = s.outByte k

theorem State.OutputAs.refl (s : State) : s.OutputAs s := ⟨rfl, rfl, fun _ => rfl⟩

theorem State.OutputAs.trans {s t u : State} (h : u.OutputAs t) (h' : t.OutputAs s) : u.OutputAs s :=
  ⟨h.sending.trans h'.sending, h.cursor.trans h'.cursor, fun k => (h.bytes k).trans (h'.bytes k)⟩

theorem State.OutputAs.symm {s t : State} (h : t.OutputAs s) : s.OutputAs t :=
  ⟨h.sending.symm, h.cursor.symm, fun k => (h.bytes k).symm⟩

/-- The bytes are those of the list, the reset number being the same. -/
theorem State.OutputAs.of_fields {s t : State} (hen : t.txEn = s.txEn) (hcur : t.outCur = s.outCur)
    (hbuf : t.outBuf = s.outBuf) (hepoch : t.epoch = s.epoch) : t.OutputAs s :=
  ⟨hen, hcur, fun k => by rw [State.outByte, State.outByte, hbuf, hepoch]⟩

theorem State.outputAs_owTick (s : State) (ph : Phase) (v : Byte) : (s.owTick ph v).OutputAs s :=
  .of_fields (by simp) (by simp) (by simp) (by simp)

@[simp] theorem State.owTick_loaded (s : State) (ph : Phase) (v : Byte) : (s.owTick ph v).loaded = s.loaded := by
  simp [State.loaded]

/-- A tick's action keeps the transmit side and loads nothing, if it stores no push and takes no report (10_state.md R20). -/
theorem TickAction.keeps_output {s u : State} {i : Input} (h : TickAction s i u)
    (hpush : i.writes 0x86#8 = true → s.txEn = true) (hreport : (i.txcValid && s.txcReady i) = false) :
    u.OutputAs s ∧ u.loaded = [] := by
  have hepoch := h.epoch
  cases h with
  | push hw hidle => simp [hpush hw] at hidle
  | report hv hready => simp [hv, hready] at hreport
  | receive =>
    refine ⟨.of_fields (by simp) (by simp) (by simp) hepoch, ?_⟩
    rw [State.loaded, State.receive_out]
    rfl
  | _ => exact ⟨⟨rfl, rfl, fun _ => rfl⟩, rfl⟩

/-- A taken report is the tick's action: no other action takes place in a tick that takes one (60_exceptions.md R224). -/
theorem TickAction.of_report {s u : State} {i : Input} (h : TickAction s i u)
    (htaken : (i.txcValid && s.txcReady i) = true) : u = (s.begin i).sendNext := by
  have noAccess : ¬ i.hReq = true := fun hh => by simp [State.txcReady_of_access hh] at htaken
  have noWrite {addr : Byte} : ¬ i.writes addr = true := fun hw => noAccess ((i.writes_iff _).mp hw).1
  cases h with
  | report => rfl
  | nothing _ htx => simp [htx] at htaken
  | answer _ hh => exact absurd hh noAccess
  | accept _ _ hc => exact absurd hc.1 noWrite
  | setMask hw | setData hw | control hw | push hw => exact absurd hw noWrite
  | receive hv hready => simp [State.txcReady, hv, hready] at htaken

/-! ## The last tick of a run -/

/-- The tick that starts in `s` takes a report (10_state.md R46 XCVR-2). -/
def State.takesReport (s : State) : Bool := (s.inputAt 0).txcValid && s.txcReady (s.inputAt 0)

/-- The last tick of a run, with what it adds to the reports taken and the bytes loaded (10_state.md R46). -/
theorem afterTicks_last {n : Nat} {s u : State} (h : afterTicks (n + 1) s = some u) :
    ∃ t, afterTicks n s = some t ∧ step t = .next u ∧
      reportsTaken (n + 1) s = reportsTaken n s + t.takesReport.toNat ∧
      loadedBytes (n + 1) s = loadedBytes n s ++ u.loaded := by
  induction n generalizing s with
  | zero =>
    obtain ⟨s', hs⟩ := step_completes s
    obtain rfl : s' = u := by simpa [afterTicks, hs] using h
    refine ⟨s, rfl, hs, ?_, by simp [loadedBytes, hs, State.loaded]⟩
    rw [reportsTaken_succ hs, reportsTaken, reportsTaken, Nat.add_comm]
    rfl
  | succ n ih =>
    obtain ⟨s', hs⟩ := step_completes s
    obtain ⟨t, ht, hu, hreports, hloads⟩ := ih (afterTicks_succ hs ▸ h)
    refine ⟨t, (afterTicks_succ hs).trans ht, hu, ?_, ?_⟩
    · rw [reportsTaken_succ hs, reportsTaken_succ hs, hreports, Nat.add_assoc]
    · rw [loadedBytes, hs, loadedBytes, hs]
      dsimp only
      rw [hloads, List.append_assoc]

theorem NoReset.last {n : Nat} {s t : State} (h : NoReset (n + 1) s) (ht : afterTicks n s = some t) :
    (t.inputAt 0).rst = false := by
  rw [afterTicks_inputAt ht]
  exact h n (Nat.lt_succ_self n)

/-! ## A line on its way out -/

/-- `t` sends the line in the output buffer of `s`, the byte at index `sent` being the one loaded last (41_transport_transmit.md
R122). -/
structure Sends (s : State) (sent : Nat) (t : State) : Prop where
  sending : t.txEn = true
  cursor : t.outCur.toNat = sent
  bytes : ∀ k, t.outByte k = s.outByte k

/-- The transmit side is all that matters. -/
theorem Sends.congr {s t u : State} {sent : Nat} (h : Sends s sent t) (hout : u.OutputAs t) : Sends s sent u where
  sending := hout.sending.trans h.sending
  cursor := by rw [hout.cursor, h.cursor]
  bytes := fun k => (hout.bytes k).trans (h.bytes k)

/-- A tick without reset that takes no report: the line waits, whatever the host does (41_transport_transmit.md R121). -/
theorem Sends.waits {s t u : State} {sent : Nat} (h : Sends s sent t) (hrst : (t.inputAt 0).rst = false)
    (hu : step t = .next u) (hnone : t.takesReport = false) :
    Sends s sent u ∧ u.loaded = [] := by
  obtain ⟨v, hv, rfl⟩ := step_tickAction hrst hu
  obtain ⟨hkept, hloaded⟩ := hv.keeps_output (fun _ => h.sending) hnone
  exact ⟨h.congr ((v.outputAs_owTick _ _).trans hkept), (v.owTick_loaded _ _).trans hloaded⟩

/-- A taken report is a transmit-complete event on the line. -/
theorem Sends.report {s t u : State} {sent : Nat} (h : Sends s sent t) (hrst : (t.inputAt 0).rst = false)
    (hu : step t = .next u) (htaken : t.takesReport = true) :
    ∃ v : State, Sends s sent v ∧ v.loaded = [] ∧ u = v.sendNext.owTick t.owPhase (t.inputAt 0).owIn := by
  obtain ⟨v, hv, rfl⟩ := step_tickAction hrst hu
  rw [hv.of_report htaken]
  exact ⟨t.begin (t.inputAt 0), h.congr ⟨rfl, rfl, fun _ => rfl⟩, rfl, rfl⟩

/-- A report before the end of the line loads its next byte (41_transport_transmit.md R122). -/
theorem Sends.loads_next {s t u : State} {sent : Nat} (h : Sends s sent t) (hrst : (t.inputAt 0).rst = false)
    (hu : step t = .next u) (htaken : t.takesReport = true)
    (hterm : s.outByte sent ≠ Config.term) (hsent : sent < 127) :
    Sends s (sent + 1) u ∧ u.loaded = [s.outByte (sent + 1)] := by
  obtain ⟨v, hv, _, rfl⟩ := h.report hrst hu htaken
  obtain ⟨hen, hcur, hbytes⟩ := hv
  have hnext : v.sendNext = (v.setOutCur (v.outCur + 1#7)).emit (s.outByte (sent + 1)) := by
    rw [State.sendNext_of_inside (by rwa [hbytes, hcur]) (by omega), hbytes, hcur]
  have hsends : Sends s (sent + 1) v.sendNext := by
    rw [hnext]
    exact ⟨hen, by simp [toNat_cursor_succ (c := v.outCur) (by omega), hcur], hbytes⟩
  refine ⟨hsends.congr (State.outputAs_owTick _ _ _), ?_⟩
  rw [State.owTick_loaded, hnext]
  rfl

/-- The report of the terminator ends the line and loads nothing (41_transport_transmit.md R122). -/
theorem Sends.ends {s t u : State} {sent : Nat} (h : Sends s sent t) (hrst : (t.inputAt 0).rst = false)
    (hu : step t = .next u) (htaken : t.takesReport = true)
    (hterm : s.outByte sent = Config.term) : u.txEn = false ∧ u.outCur = 0#7 ∧ u.rxEn = true ∧ u.loaded = [] := by
  obtain ⟨v, hv, hloaded, rfl⟩ := h.report hrst hu htaken
  have hend : v.outByte v.outCur.toNat = Config.term := by rw [hv.bytes, hv.cursor, hterm]
  rw [State.owTick_loaded, State.sendNext_of_end (.inl hend)]
  exact ⟨by simp, by simp, by simp, hloaded⟩

/-- The line over a run, by induction over its ticks: as long as no more reports are taken than bytes stand before its terminator,
each report has loaded the next byte. -/
theorem Sends.run {n last : Nat} {s t : State} (h : Sends s 0 s) (hlast : last ≤ 127)
    (hopen : ∀ k < last, s.outByte k ≠ Config.term) (hrst : NoReset n s) (ht : afterTicks n s = some t)
    (hreports : reportsTaken n s ≤ last) :
    Sends s (reportsTaken n s) t ∧
      loadedBytes n s = (List.range (reportsTaken n s)).map (fun k => s.outByte (k + 1)) := by
  induction n generalizing t with
  | zero => cases ht; exact ⟨h, rfl⟩
  | succ n ih =>
    obtain ⟨t', ht', hstep, hcount, hloads⟩ := afterTicks_last ht
    have hrst' := hrst.last ht'
    obtain ⟨hsends, hloaded⟩ := ih (fun k hk => hrst k (Nat.lt_succ_of_lt hk)) ht' (by omega)
    rw [hloads, hloaded]
    cases htaken : t'.takesReport with
    | false =>
      obtain ⟨hnext, hnone⟩ := hsends.waits hrst' hstep htaken
      rw [htaken, Bool.toNat_false, Nat.add_zero] at hcount
      rw [hcount, hnone, List.append_nil]
      exact ⟨hnext, rfl⟩
    | true =>
      rw [htaken, Bool.toNat_true] at hcount
      obtain ⟨hnext, hone⟩ := hsends.loads_next hrst' hstep htaken (hopen _ (by omega)) (by omega)
      rw [hcount, hone, List.range_succ, List.map_append]
      exact ⟨hnext, rfl⟩

/-- Settles O33: the line is on its way out over the whole run, and one report more than its terminator's index ends it. -/
theorem lineInFlightDrainsInOrder : Obligations.LineInFlightDrainsInOrder := by
  intro n last s t hen hcur hlast hterm hopen hrst ht hreports
  have hstart : Sends s 0 s := ⟨hen, by simp [hcur], fun _ => rfl⟩
  obtain ⟨hsends, hloads⟩ := hstart.run hlast hopen hrst ht hreports
  refine ⟨hsends.sending, hsends.cursor, hloads, fun u hrst' hall hover hu => ?_⟩
  obtain ⟨t', ht', hstep, hcount, hloads'⟩ := afterTicks_last hu
  obtain rfl : t = t' := Option.some.inj (ht.symm.trans ht')
  have htaken : t.takesReport = true := by
    by_contra hnone
    rw [Bool.eq_false_of_not_eq_true hnone, Bool.toNat_false] at hcount
    omega
  obtain ⟨hdone, hzero, hrx, hnone⟩ := hsends.ends (hrst'.last ht) hstep htaken (by rwa [hall])
  exact ⟨hdone, hzero, hrx, by rw [hloads', hnone, List.append_nil]⟩

end Sys2Proof.Machine
end

section
/-! SUPPORT. A Write at the host port (30_encoding.md R88, 41_transport_transmit.md R124): a push is told by the transmit side
alone, so that the pushes of a Write leave the same transmit side as operations in order, as host accesses one a tick, and as
host accesses with waiting ticks between them. -/

namespace Sys2Proof.Machine

/-! ## TP.PUSH, stored or dropped -/

/-- What TP.PUSH makes of the state: dropped while a line is being sent (41_transport_transmit.md R121), stored otherwise. -/
def State.pushOrDrop (s : State) (b : Byte) : State := if s.txEn then s else s.push b

theorem exec_tpPush (b : Byte) (s : State) : exec (.tpPush b) s = .next (s.pushOrDrop b) := rfl

theorem State.pushOrDrop_of_sending {s : State} (h : s.txEn = true) (b : Byte) : s.pushOrDrop b = s := if_pos h

theorem State.pushOrDrop_of_idle {s : State} (h : s.txEn = false) (b : Byte) : s.pushOrDrop b = s.push b := by
  simp [State.pushOrDrop, h]

/-- A push that neither is the terminator nor fills index 126. -/
theorem State.pushOrDrop_of_inside {s : State} {b : Byte} (hidle : s.txEn = false) (hb : b ≠ Config.term)
    (hlast : s.outCur + 1#7 ≠ Config.lastIndex) :
    s.pushOrDrop b = (s.storeOut s.outCur.toNat b).setOutCur (s.outCur + 1#7) := by
  rw [State.pushOrDrop_of_idle hidle, State.push, if_neg hb, if_neg hlast]

theorem State.outputAs_quiet (s : State) : s.quiet.OutputAs s := ⟨rfl, rfl, fun _ => rfl⟩

/-- A push is told by the transmit side it finds (41_transport_transmit.md R120). -/
theorem State.OutputAs.push {s t : State} (h : t.OutputAs s) (b : Byte) : (t.push b).OutputAs (s.push b) := by
  obtain ⟨hen, hcur, hbytes⟩ := h
  have hbytes' (k : Nat) : (t.push b).outByte k = (s.push b).outByte k := by
    rw [State.push_outByte, State.push_outByte, hcur, hbytes]
  by_cases hend : b = Config.term ∨ s.outCur.toNat + 1 = 127
  · obtain ⟨htcur, hten, _⟩ := State.push_of_end (s := t) (hcur ▸ hend)
    obtain ⟨hscur, hsen, _⟩ := State.push_of_end hend
    exact ⟨hten.trans hsen.symm, htcur.trans hscur.symm, hbytes'⟩
  · obtain ⟨hb, hlast⟩ := not_or.mp hend
    refine ⟨?_, ?_, hbytes'⟩ <;> rw [State.push_of_inside hb hlast, State.push_of_inside hb (hcur ▸ hlast)]
    · exact hen
    · exact congrArg (· + 1#7) hcur

theorem State.OutputAs.pushOrDrop {s t : State} (h : t.OutputAs s) (b : Byte) :
    (t.pushOrDrop b).OutputAs (s.pushOrDrop b) := by
  cases hs : s.txEn with
  | true => rwa [State.pushOrDrop_of_sending hs, State.pushOrDrop_of_sending (h.sending.trans hs)]
  | false =>
    rw [State.pushOrDrop_of_idle hs, State.pushOrDrop_of_idle (h.sending.trans hs)]
    exact h.push b

theorem State.pushOrDrop_rxEn (s : State) (b : Byte) : (s.pushOrDrop b).rxEn = s.rxEn := by
  unfold State.pushOrDrop
  split <;> simp

/-- One push at the host port. -/
theorem hostAccess_tpPush (s : State) (b : Byte) :
    ∃ t, hostAccess (.tpPush b) s = some t ∧ t.OutputAs (s.pushOrDrop b) ∧ t.rxEn = s.rxEn := by
  have hbegin : (s.beginAccess (hostWord true 0x86#8 b)).OutputAs s := ⟨rfl, rfl, fun _ => rfl⟩
  refine ⟨_, hostAccess_eq (i := .tpPush b) (s := s) rfl rfl (exec_tpPush b _), ?_, ?_⟩
  · exact (State.outputAs_owTick _ _ _).trans (hbegin.pushOrDrop b)
  · simp only [State.owTick_keeps, State.pushOrDrop_rxEn]
    rfl

/-! ## The pushes of a Write -/

/-- Pushes at the host port, one a tick, leave the transmit side of the same pushes done as operations. -/
theorem hostAccesses_pushes {bytes loads : List Byte} {s s' t : State} (hs : s'.OutputAs s)
    (ht : runOps (bytes.map .tpPush) s = some (t, loads)) :
    ∃ v, hostAccesses (bytes.map .tpPush) s' = some v ∧ v.OutputAs t ∧ v.rxEn = s'.rxEn := by
  induction bytes generalizing s s' loads with
  | nil => cases ht; exact ⟨s', rfl, hs, rfl⟩
  | cons b rest ih =>
    rw [List.map_cons, runOps, exec_tpPush] at ht
    obtain ⟨⟨t', loads'⟩, hrest, heq⟩ := Option.map_eq_some_iff.mp ht
    cases heq
    obtain ⟨u, hu, hout, hrx⟩ := hostAccess_tpPush s' b
    have hout' := hout.trans ((hs.trans s.outputAs_quiet.symm).pushOrDrop b)
    obtain ⟨v, hv, hvout, hvrx⟩ := ih hout' hrest
    exact ⟨v, (hostAccesses_cons hu).trans hv, hvout, hvrx.trans hrx⟩

/-- A Write is its first push and, if it does not end with it, the Write of the rest (41_transport_transmit.md R124): the
terminator ends it, and where it is stored the push that fills index 126. -/
theorem writeLine_cons {s t : State} {b : Byte} (ht : t.OutputAs (s.pushOrDrop b)) (rest : List Byte) :
    writeLine s (b :: rest) = .tpPush b :: if s.endsWrite b then [] else writeLine t rest := by
  obtain ⟨hen, hcur, _⟩ := ht
  cases hs : s.txEn with
  | true =>
    rw [State.pushOrDrop_of_sending hs, hs] at hen
    rw [writeLine_of_sending hs, writeLine_of_sending hen, droppedBytes_cons]
    by_cases hb : b = Config.term <;> simp [State.endsWrite, hs, hb]
  | false =>
    have hline : writeLine s (b :: rest) = (pushedBytes s.writeRoom (b :: rest)).map .tpPush := by simp [writeLine, hs]
    rw [hline, State.writeRoom, pushedBytes_cons]
    by_cases hb : b = Config.term
    · simp [State.endsWrite, hb]
    · by_cases hlast : s.outCur + 1#7 = Config.lastIndex
      · have hroom : (Config.lastIndex - 1#7 - s.outCur).toNat = 0 := by rw [← hlast]; bv_omega
        simp [State.endsWrite, hs, hb, hlast, hroom]
      · rw [State.pushOrDrop_of_inside hs hb hlast, State.setOutCur_txEn, State.storeOut_txEn, hs] at hen
        rw [State.pushOrDrop_of_inside hs hb hlast, State.setOutCur_outCur] at hcur
        have hroom : (Config.lastIndex - 1#7 - s.outCur).toNat = t.writeRoom := by
          rw [State.writeRoom, hcur]
          unfold Config.lastIndex at hlast ⊢
          bv_omega
        simp [State.endsWrite, hs, hb, hlast, hroom, writeLine, hen]

@[simp] theorem write_nil (s : State) : write [] s = some s := by
  cases hs : s.txEn <;> simp [write, writeLine, hs]

/-- The same at the host port. -/
theorem write_cons {s u : State} {b : Byte} (hu : hostAccess (.tpPush b) s = some u) (rest : List Byte) :
    write (b :: rest) s = if s.endsWrite b then some u else write rest u := by
  obtain ⟨t, ht, hout, _⟩ := hostAccess_tpPush s b
  obtain rfl : t = u := Option.some.inj (ht.symm.trans hu)
  rw [write, writeLine_cons hout, hostAccesses_cons hu]
  split <;> rfl

/-! ## A Write at any pace -/

/-- Waiting ticks complete, and while no line is being sent they leave the transmit side (41_transport_transmit.md R123). -/
theorem hostWaits_completes (n : Nat) (s : State) :
    ∃ t, hostWaits n s = some t ∧ (s.txEn = false → t.OutputAs s) := by
  induction n generalizing s with
  | zero => exact ⟨s, rfl, fun _ => .refl s⟩
  | succ n ih =>
    obtain ⟨s', hs⟩ := step_completes (s.placeInput (s.inputAt 0).withoutAccess)
    obtain ⟨t, ht, hout⟩ := ih s'
    refine ⟨t, by rw [hostWaits, hs]; exact ht, fun hidle => ?_⟩
    obtain ⟨u, hu, hs'⟩ := step_tickAction rfl hs
    have hnone : (s.placeInput (s.inputAt 0).withoutAccess).takesReport = false := by
      simp [State.takesReport, State.txcReady, State.txOpen, State.placeInput, hidle]
    have hplaced : (s.placeInput (s.inputAt 0).withoutAccess).OutputAs s := ⟨rfl, rfl, fun _ => rfl⟩
    obtain ⟨hkept, _⟩ := hu.keeps_output (fun hw => absurd ((Input.writes_iff _ _).mp hw).1 Bool.false_ne_true) hnone
    have hs'out : s'.OutputAs s := by
      rw [hs']
      exact (State.outputAs_owTick _ _ _).trans (hkept.trans hplaced)
    exact (hout (hs'out.sending.trans hidle)).trans hs'out

/-- A push that does not end a Write starts no line. -/
theorem State.txEn_of_not_endsWrite {s : State} {b : Byte} (h : ¬ s.endsWrite b = true) (hidle : s.txEn = false) :
    (s.pushOrDrop b).txEn = false := by
  obtain ⟨hb, hlast⟩ : b ≠ Config.term ∧ s.outCur + 1#7 ≠ Config.lastIndex := by
    simpa [State.endsWrite, hidle] using h
  rw [State.pushOrDrop_of_inside hidle hb hlast]
  exact hidle

/-- Whether a push ends a Write is told by the transmit side. -/
theorem State.OutputAs.endsWrite {s t : State} (h : t.OutputAs s) (b : Byte) : t.endsWrite b = s.endsWrite b := by
  rw [State.endsWrite, State.endsWrite, h.sending, h.cursor]

/-- Every Write completes, at any pace. -/
theorem writePaced_completes (paced : List (Nat × Byte)) (s : State) : ∃ t, writePaced paced s = some t := by
  induction paced generalizing s with
  | nil => exact ⟨s, rfl⟩
  | cons p rest ih =>
    obtain ⟨wait, b⟩ := p
    obtain ⟨t, ht, _⟩ := hostWaits_completes wait s
    obtain ⟨u, hu, _⟩ := hostAccess_tpPush t b
    rw [writePaced_cons ht hu]
    split
    · exact ⟨u, rfl⟩
    · exact ih u

/-- While no line is being sent, its pace does not matter to the transmit side. -/
theorem writePaced_outputAs {paced : List (Nat × Byte)} {s s' : State} (hs : s.OutputAs s') (hidle : s.txEn = false) :
    ∃ t v, writePaced paced s = some t ∧ write (paced.map Prod.snd) s' = some v ∧ t.OutputAs v := by
  induction paced generalizing s s' with
  | nil => exact ⟨s, s', rfl, write_nil s', hs⟩
  | cons p rest ih =>
    obtain ⟨wait, b⟩ := p
    obtain ⟨t, ht, hkept⟩ := hostWaits_completes wait s
    obtain ⟨u, hu, hout, _⟩ := hostAccess_tpPush t b
    obtain ⟨u', hu', hout', _⟩ := hostAccess_tpPush s' b
    have hts := (hkept hidle).trans hs
    have huu := (hout.trans (hts.pushOrDrop b)).trans hout'.symm
    rw [List.map_cons, writePaced_cons ht hu, write_cons hu', hts.endsWrite]
    split
    · exact ⟨u, u', rfl, rfl, huu⟩
    · next hgoesOn =>
      have hidle' : s'.txEn = false := hs.sending ▸ hidle
      exact ih huu (huu.sending.trans (hout'.sending.trans (State.txEn_of_not_endsWrite hgoesOn hidle')))

/-- With no waiting tick before a push it is the Write of one push a tick. -/
theorem writePaced_no_wait (bytes : List Byte) (s : State) :
    writePaced (bytes.map (fun b => (0, b))) s = write bytes s := by
  induction bytes generalizing s with
  | nil => rw [write_nil]; rfl
  | cons b rest ih =>
    obtain ⟨u, hu, _⟩ := hostAccess_tpPush s b
    rw [List.map_cons, writePaced_cons (hostWaits_zero s) hu, write_cons hu, ih]

/-! ## A Write while a line is being sent -/

/-- No push fills the buffer, so a dropped Write is one with all the room it needs. -/
theorem droppedBytes_eq_pushedBytes (line : List Byte) : droppedBytes line = pushedBytes line.length line := by
  induction line with
  | nil => rfl
  | cons b rest ih => rw [droppedBytes_cons, List.length_cons, pushedBytes_cons, ih]

/-- Dropped pushes leave the state, and load nothing (41_transport_transmit.md R121). -/
theorem runOps_dropped {s : State} (h : s.txEn = true) (bytes : List Byte) :
    ∃ t, runOps (bytes.map .tpPush) s = some (t, []) ∧ t.quiet = s.quiet := by
  induction bytes generalizing s with
  | nil => exact ⟨s, rfl, rfl⟩
  | cons b rest ih =>
    obtain ⟨t, ht, hquiet⟩ := ih (s := s.quiet) h
    exact ⟨t, runOps_cons (exec_tpPush_of_sending (s := s.quiet) h b) ht, hquiet⟩

/-- Settles O60: the pushes of a Write while a line is being sent, its pace, and the pace of one push a tick. -/
theorem writeWhileSendingAndWriteAtAnyPace : Obligations.WriteWhileSendingAndWriteAtAnyPace := by
  refine ⟨fun s bytes pushed hsending hpushed => ?sending, fun s paced => ?paced, fun s bytes => writePaced_no_wait bytes s⟩
  case sending =>
    have hops : writeLine s bytes = pushed.map .tpPush := hpushed ▸ writeLine_of_sending hsending bytes
    have hroom : pushed = pushedBytes bytes.length bytes := hpushed.trans (droppedBytes_eq_pushedBytes bytes)
    obtain ⟨t, ht, hquiet⟩ := runOps_dropped hsending pushed
    have hts : t.OutputAs s := t.outputAs_quiet.symm.trans (hquiet ▸ s.outputAs_quiet)
    obtain ⟨v, hv, hout, hrx⟩ := hostAccesses_pushes (.refl s) ht
    have hvs := hout.trans hts
    rw [write, hops, ← term_eq]
    refine ⟨hroom ▸ pushedBytes_prefix _ bytes, rfl, hroom ▸ term_not_mem_dropLast_pushedBytes _ bytes, fun hterm => ?_,
      fun hterm => hpushed.trans (droppedBytes_of_no_term hterm), ⟨t, ht, hquiet⟩,
      v, hv, hvs.sending.trans hsending, hvs.cursor, hrx, hvs.bytes⟩
    obtain ⟨body, _, hbody⟩ := pushedBytes_of_term (room := bytes.length) (line := bytes) (by simpa using hterm)
    simp [hroom, hbody]
  case paced =>
    obtain ⟨t, ht⟩ := writePaced_completes paced s
    refine ⟨t, ht, fun hidle => ?_⟩
    obtain ⟨t', v, ht', hv, hout⟩ := writePaced_outputAs (paced := paced) (.refl s) hidle
    obtain rfl : t = t' := Option.some.inj (ht.symm.trans ht')
    exact ⟨v, hv, hout.sending, hout.cursor, hout.bytes⟩

/-! ## A Write that continues a partial line -/

/-- The bytes of `t` are those of the partial line of `s` below its cursor, followed by `more`. -/
structure Appended (s : State) (more : List Byte) (t : State) : Prop where
  before : ∀ k < s.outCur.toNat, t.outByte k = s.outByte k
  stored : ∀ k (h : k < more.length), t.outByte (s.outCur.toNat + k) = more[k]

/-- The partial line of `s` goes on with `more` in `t`, and no line is being sent (41_transport_transmit.md R120,
70_reset_and_hazards.md R258). -/
structure Continues (s : State) (more : List Byte) (t : State) : Prop where
  notSending : t.txEn = false
  cursor : t.outCur.toNat = s.outCur.toNat + more.length
  appended : Appended s more t

theorem Continues.quiet {s t : State} {more : List Byte} (h : Continues s more t) : Continues s more t.quiet := by
  obtain ⟨hidle, hcur, hbefore, hstored⟩ := h
  exact ⟨hidle, hcur, hbefore, hstored⟩

/-- A push appends its byte, whether or not it starts the line. -/
theorem Continues.push_appended {s t : State} {more : List Byte} (h : Continues s more t)
    (hroom : s.outCur.toNat + more.length ≤ 126) (b : Byte) : Appended s (more ++ [b]) (t.push b) := by
  obtain ⟨_, hcur, hbefore, hstored⟩ := h
  have hbyte (k : Nat) (hk : k ≤ 126) : (t.push b).outByte k = if k = t.outCur.toNat then b else t.outByte k := by
    rw [State.push_outByte, if_neg (by omega)]
  refine ⟨fun k hk => ?_, fun k hk => ?_⟩
  · rw [hbyte k (by omega), if_neg (by omega), hbefore k hk]
  · rw [List.length_append, List.length_singleton] at hk
    rw [hbyte _ (by omega), hcur, List.getElem_append]
    split
    · next heq => simp [show k = more.length by omega]
    · next hne => rw [dif_pos (by omega)]; exact hstored k (by omega)

/-- One that does not start it loads nothing. -/
theorem Continues.push_inside {s t : State} {more : List Byte} (h : Continues s more t) {b : Byte} (hb : b ≠ Config.term)
    (hroom : s.outCur.toNat + more.length < 126) : Continues s (more ++ [b]) (t.push b) ∧ (t.push b).out = t.out := by
  have happend := h.push_appended hroom.le b
  obtain ⟨hidle, hcur, _⟩ := h
  rw [State.push_of_inside hb (by omega)] at happend ⊢
  refine ⟨⟨hidle, ?_, happend⟩, rfl⟩
  simp [toNat_cursor_succ (c := t.outCur) (by omega), hcur, Nat.add_assoc]

/-- Pushes before the one that starts the line. -/
theorem Continues.run {s : State} (hidle : s.txEn = false) {body : List Byte} (hterm : Config.term ∉ body)
    (hroom : s.outCur.toNat + body.length ≤ 126) :
    ∃ t, runOps (body.map .tpPush) s = some (t, []) ∧ Continues s body t := by
  induction body using List.reverseRecOn with
  | nil => exact ⟨s, rfl, hidle, rfl, fun _ _ => rfl, fun _ hk => absurd hk (Nat.not_lt_zero _)⟩
  | append_singleton body b ih =>
    rw [List.mem_append, List.mem_singleton, not_or] at hterm
    rw [List.length_append, List.length_singleton] at hroom
    obtain ⟨t, ht, hcontinues⟩ := ih hterm.1 (by omega)
    obtain ⟨hnext, hout⟩ := hcontinues.quiet.push_inside (Ne.symm hterm.2) (by omega)
    have hloaded : (t.quiet.push b).loaded = [] := by rw [State.loaded, hout]; rfl
    have hlast := runOps_cons (exec_tpPush_of_idle hcontinues.quiet.notSending b) (runOps_nil _)
    rw [hloaded] at hlast
    refine ⟨_, ?_, hnext⟩
    rw [List.map_append]
    exact runOps_append ht hlast

/-- The push that starts the line. -/
theorem Continues.run_start {s t : State} {body : List Byte} {b : Byte} (h : Continues s body t)
    (ht : runOps (body.map .tpPush) s = some (t, [])) (hroom : s.outCur.toNat + body.length ≤ 126)
    (hend : b = Config.term ∨ s.outCur.toNat + (body.length + 1) = 127) :
    ∃ u, runOps ((body ++ [b]).map .tpPush) s = some (u, [u.outByte 0]) ∧ u.txEn = true ∧ u.outCur = 0#7 ∧
      Appended s (body ++ [b]) u := by
  have hcur := h.quiet.cursor
  obtain ⟨hzero, hen, hwr, hdata⟩ := State.push_of_end (s := t.quiet) (b := b) (hend.imp_right (by omega))
  have hloaded : (t.quiet.push b).loaded = [(t.quiet.push b).outByte 0] := by simp [State.loaded, hwr, hdata]
  have hlast := runOps_cons (exec_tpPush_of_idle h.quiet.notSending b) (runOps_nil _)
  rw [hloaded] at hlast
  refine ⟨_, ?_, hen, hzero, h.quiet.push_appended hroom b⟩
  rw [List.map_append]
  exact runOps_append ht hlast

/-- A Write whose pushes start no line has pushed all of its line (41_transport_transmit.md R124). -/
theorem pushedBytes_of_not_ended {room : Nat} {line : List Byte}
    (hterm : (pushedBytes room line).getLast? ≠ some Config.term) (hlen : (pushedBytes room line).length ≠ room) :
    pushedBytes room line = line ∧ Config.term ∉ line := by
  have hnone : Config.term ∉ line.take room := by
    intro hmem
    obtain ⟨body, _, hbody⟩ := pushedBytes_of_term hmem
    simp [hbody] at hterm
  rw [pushedBytes_of_no_term hnone] at hlen ⊢
  have hall : line.take room = line := by
    rw [List.length_take] at hlen
    exact List.take_of_length_le (by omega)
  exact ⟨hall, hall ▸ hnone⟩

/-- Settles O59: the pushes before the last append to the partial line; the last starts the line, or there is none that does and
all of the line is appended. At the host port the same pushes leave the same transmit side. -/
theorem writeStopsAtThePushThatStarts : Obligations.WriteStopsAtThePushThatStarts := by
  intro s bytes pushed hidle hcur hpushed
  have hops : writeLine s bytes = pushed.map .tpPush := hpushed ▸ writeLine_of_idle hidle hcur bytes
  have hlen : s.outCur.toNat + pushed.length ≤ 127 := by
    have := length_pushedBytes_le (127 - s.outCur.toNat) bytes
    rw [← hpushed] at this
    omega
  have hbefore : ∀ k < pushed.length, ∃ u, runOps ((pushed.take k).map .tpPush) s = some (u, []) ∧
      Continues s (pushed.take k) u := by
    intro k hk
    refine Continues.run hidle (fun hmem => ?_) (by rw [List.length_take]; omega)
    have hsub : pushed.take k <+: pushed.dropLast := by
      rw [List.dropLast_eq_take]
      exact List.take_prefix_take_left (by omega)
    exact term_not_mem_dropLast_pushedBytes _ bytes (hpushed ▸ hsub.subset hmem)
  rw [write, hops, ← term_eq]
  refine ⟨hpushed ▸ pushedBytes_prefix _ bytes, fun k hk => ?first, ?whole⟩
  case first =>
    obtain ⟨u, hu, hcontinues⟩ := hbefore k hk
    refine ⟨u, by rwa [← List.map_take], hcontinues.notSending, ?_⟩
    rw [hcontinues.cursor, List.length_take_of_le hk.le]
  case whole =>
    by_cases hend : pushed.getLast? = some Config.term ∨ s.outCur.toNat + pushed.length = 127
    · obtain ⟨body, b, rfl⟩ : ∃ body b, pushed = body ++ [b] := by
        rcases List.eq_nil_or_concat' pushed with rfl | h
        · simp at hend; omega
        · exact h
      obtain ⟨t, ht, hcontinues⟩ := hbefore body.length (by simp)
      rw [List.take_left] at ht hcontinues
      rw [List.length_append, List.length_singleton] at hlen
      obtain ⟨u, hu, hen, hzero, happend⟩ := hcontinues.run_start (b := b) ht (by omega) (by simpa using hend)
      obtain ⟨v, hv, hout, _⟩ := hostAccesses_pushes (.refl s) hu
      refine ⟨u, _, hu, iff_of_true hen hend, by simp [hen], fun _ => ⟨hzero, rfl, exec_tpPush_of_sending hen⟩,
        happend.before, happend.stored, v, hv, hout.sending, hout.cursor, hout.bytes⟩
    · obtain ⟨hterm, hroom⟩ := not_or.mp hend
      obtain ⟨hall, hnone⟩ := pushedBytes_of_not_ended (hpushed ▸ hterm) (by rw [← hpushed]; omega)
      rw [← hpushed] at hall
      obtain ⟨t, ht, hcontinues⟩ := Continues.run hidle (hall ▸ hnone : Config.term ∉ pushed) (by omega)
      obtain ⟨v, hv, hout, _⟩ := hostAccesses_pushes (.refl s) ht
      obtain ⟨hstill, hcursor, happend⟩ := hcontinues
      refine ⟨t, [], ht, iff_of_false (by simp [hstill]) hend, fun _ => ⟨hall, rfl, hall ▸ hcursor⟩, by simp [hstill],
        happend.before, happend.stored, v, hv, hout.sending, hout.cursor, hout.bytes⟩

end Sys2Proof.Machine
end

section
/-! SUPPORT. The one-wire commands tick by tick (42_onewire_primitives.md): what a sample makes of the line levels (R148, R149),
how a write to OW_CMD is taken (R140), and what a tick of IDLE, DRIVE and RELEASE does (R141 to R143). -/

namespace Sys2Proof.Machine

/-! ## Targeted lines -/

theorem mask_ne_zero_iff (m : Byte) : m ≠ 0#8 ↔ ∃ k < 8, m.getLsbD k = true := by
  rw [ne_eq, ← not_iff_comm]
  constructor
  · intro h
    apply BitVec.eq_of_getLsbD_eq
    intro k hk
    simpa using fun hm => h ⟨k, hk, hm⟩
  · rintro rfl
    simp

/-- No targeted line is high. -/
theorem and_mask_eq_zero_iff (v m : Byte) :
    v &&& m = 0#8 ↔ ∀ k < 8, m.getLsbD k = true → v.getLsbD k = false := by
  rw [← not_iff_not, ← ne_eq, mask_ne_zero_iff]
  simp only [BitVec.getLsbD_and, Bool.and_eq_true, not_forall, Bool.not_eq_false, exists_prop]
  tauto

/-- Every targeted line is high. -/
theorem and_mask_eq_mask_iff (v m : Byte) :
    v &&& m = m ↔ ∀ k < 8, m.getLsbD k = true → v.getLsbD k = true := by
  constructor
  · intro h k _ hm
    rw [← h, BitVec.getLsbD_and, Bool.and_eq_true] at hm
    exact hm.1
  · intro h
    apply BitVec.eq_of_getLsbD_eq
    intro k hk
    rw [BitVec.getLsbD_and]
    cases hm : m.getLsbD k with
    | false => rw [Bool.and_false]
    | true => rw [h k hk hm, Bool.and_true]

/-- Lines outside the mask do not count. -/
theorem and_mask_congr {v w m : Byte} (h : ∀ k < 8, m.getLsbD k = true → v.getLsbD k = w.getLsbD k) :
    v &&& m = w &&& m := by
  apply BitVec.eq_of_getLsbD_eq
  intro k hk
  rw [BitVec.getLsbD_and, BitVec.getLsbD_and]
  cases hm : m.getLsbD k with
  | false => rw [Bool.and_false, Bool.and_false]
  | true => rw [h k hk hm]

/-- ANY_HIGH (42_onewire_primitives.md R148). -/
theorem rdbit_anyHigh_iff (v m : Byte) :
    rdbit .anyHigh v m = true ↔ ∃ k < 8, m.getLsbD k = true ∧ v.getLsbD k = true := by
  rw [rdbit, bne_iff_ne, mask_ne_zero_iff]
  simp only [BitVec.getLsbD_and, Bool.and_eq_true]
  tauto

/-- ALL_HIGH (42_onewire_primitives.md R148). -/
theorem rdbit_allHigh_iff (v m : Byte) :
    rdbit .allHigh v m = true ↔ ∀ k < 8, m.getLsbD k = true → v.getLsbD k = true := by
  rw [rdbit, beq_iff_eq, and_mask_eq_mask_iff]

/-- The level all targeted lines share is the bit, under both functions. -/
theorem rdbit_of_agree (c : Combine) {v m : Byte} {level : Bool} (hm : m ≠ 0#8)
    (h : ∀ k < 8, m.getLsbD k = true → v.getLsbD k = level) : rdbit c v m = level := by
  obtain ⟨j, hj, hmj⟩ := (mask_ne_zero_iff m).mp hm
  rw [Bool.eq_iff_iff]
  cases c with
  | anyHigh =>
    rw [rdbit_anyHigh_iff]
    exact ⟨fun ⟨k, hk, hmk, hv⟩ => h k hk hmk ▸ hv, fun hl => ⟨j, hj, hmj, (h j hj hmj).trans hl⟩⟩
  | allHigh =>
    rw [rdbit_allHigh_iff]
    exact ⟨fun hall => h j hj hmj ▸ hall j hj hmj, fun hl k hk hmk => (h k hk hmk).trans hl⟩

theorem rdbit_congr (c : Combine) {v w m : Byte} (h : ∀ k < 8, m.getLsbD k = true → v.getLsbD k = w.getLsbD k) :
    rdbit c v m = rdbit c w m := by
  cases c <;> simp only [rdbit, and_mask_congr h]

/-- Settles O50: the two functions quantify over the targeted lines, some and all of them. -/
theorem readBitOfTheTargetedLines : Obligations.ReadBitOfTheTargetedLines := by
  refine ⟨fun v m => ⟨?anyHigh, ?allHigh⟩, fun v m hhigh hlow => ⟨(rdbit_anyHigh_iff v m).mpr hhigh, ?disagree⟩,
    fun c v k hk => ?oneLine, fun c v m level => rdbit_of_agree c, fun v => ⟨?noneAny, ?noneAll⟩,
    fun c v w m => rdbit_congr c⟩
  case anyHigh => rw [Bool.eq_iff_iff]; simp [rdbit]
  case allHigh => rw [Bool.eq_iff_iff]; simp [rdbit]
  case disagree =>
    obtain ⟨k, hk, hm, hv⟩ := hlow
    rw [← Bool.not_eq_true, rdbit_allHigh_iff]
    exact fun hall => by simp [hall k hk hm] at hv
  case oneLine =>
    have hline (j : Nat) : (BitVec.twoPow 8 k).getLsbD j = true ↔ k = j := by
      rw [BitVec.getLsbD_twoPow]
      simp [hk]
    have htargeted : BitVec.twoPow 8 k ≠ 0#8 := (mask_ne_zero_iff _).mpr ⟨k, hk, (hline k).mpr rfl⟩
    exact rdbit_of_agree c htargeted fun j _ hj => by rw [(hline j).mp hj]
  case noneAny => simp [← Bool.not_eq_true, rdbit_anyHigh_iff]
  case noneAll => simp [rdbit_allHigh_iff]

/-- Settles O51: `v & m` shows the targeted lines that are high. -/
theorem presentWhenEveryTargetedLineIsLow : Obligations.PresentWhenEveryTargetedLineIsLow := by
  intro v m
  rw [present, Bool.and_eq_true, bne_iff_ne, beq_iff_eq, and_mask_eq_zero_iff]

/-! ## A write to OW_CMD -/

theorem State.command_of_idle {s : State} (h : s.owPhase = .idle) (op : OwOp) : s.command op = s.accept op := by
  simp [State.command, h]

theorem State.command_of_busy {s : State} (h : s.owPhase ≠ .idle) (op : OwOp) : s.command op = s :=
  (s.command_cases op).resolve_right fun hacc => h hacc.1

/-- Settles O35: each of the six operations is the write of its command. -/
theorem commandsAreAcceptedWhenIdle : Obligations.CommandsAreAcceptedWhenIdle := by
  intro s
  refine ⟨fun hidle => ?_, fun hbusy i hi => ?_⟩
  · have accepted (op : OwOp) := congrArg (Host.Outcome.next (φ := Fault) (ρ := Refusal)) (s.command_of_idle hidle op)
    exact ⟨accepted .reset, accepted .write0, accepted .write1, accepted .readbit, accepted .sendbyte, accepted .recvbyte⟩
  · have hcommand : ∃ op, exec i s = .next (s.command op) := by
      simp only [List.mem_cons, List.not_mem_nil, or_false] at hi
      rcases hi with rfl | rfl | rfl | rfl | rfl | rfl <;> exact ⟨_, rfl⟩
    obtain ⟨op, hop⟩ := hcommand
    rw [hop, State.command_of_busy hbusy]

/-- A write to OW_CMD that is no command, or finds the unit busy, is ignored (42_onewire_primitives.md R140). -/
theorem exec_decodeCommand_ignored {d : Byte} {s : State}
    (h : (∀ op : OwOp, op ≠ .noCommand → d ≠ op.code.setWidth 8) ∨ s.owPhase ≠ .idle) :
    exec (decodeCommand d) s = .next s := by
  rcases exec_decodeCommand d s with hig | ⟨op, hop, hcode, hcmd⟩
  · exact hig
  · rcases h with hnone | hbusy
    · exact absurd hcode (hnone op hop)
    · rw [hcmd, State.command_of_busy hbusy]

/-- Settles O36: the write names the command of its opcode, and the sequencer ticks on the phase before it. -/
theorem commandWriteIsAcceptedOrIgnored : Obligations.CommandWriteIsAcceptedOrIgnored := by
  rintro s i rfl hrst hw
  obtain ⟨hh, hwe, haddr⟩ := (Input.writes_iff _ _).mp hw
  refine ⟨fun op hop hidle hdata => ?accepted, fun h => step_of_write hrst hh hwe haddr (exec_decodeCommand_ignored h)⟩
  have he := exec_decodeCommand_code hop (s := s.begin (s.inputAt 0)) hidle
  rw [step_of_write hrst hh hwe haddr (hdata ▸ he), hidle, State.owTick_idle]
  cases op <;> rfl

/-! ## A tick of the sequencer -/

theorem State.owOe_of_drive {s : State} (h : s.owPhase = .drive) : s.owOe = s.owLmask := by simp [State.owOe, h]

theorem State.owOe_of_not_drive {s : State} (h : s.owPhase ≠ .drive) : s.owOe = 0#8 := by
  unfold State.owOe
  split
  · contradiction
  all_goals rfl

/-- `ow_oe` shows the lines driven at the start of the tick (10_state.md R45). -/
theorem step_owOe {s t : State} (h : step s = .next t) : t.out.owOe = s.owOe := by
  obtain ⟨_, _, _, hout⟩ := step_ports h
  rw [hout]
  rfl

/-- But for the acceptance of a command, an action writes none of the sequencer's elements (10_state.md R20). -/
theorem TickAction.keeps_sequencer {s u : State} {i : Input} (h : TickAction s i u)
    (hno : ∀ op, op ≠ .noCommand → ¬ i.commands op) :
    u.owPhase = s.owPhase ∧ u.owCnt = s.owCnt ∧ u.owOp = s.owOp ∧ u.owPrim = s.owPrim ∧ u.owBitn = s.owBitn ∧
    u.owLmask = s.owLmask ∧ u.owPresent = s.owPresent ∧ u.owRdbit = s.owRdbit := by
  cases h with
  | accept op hop hc => exact absurd hc (hno op hop)
  | push => obtain ⟨_, _, _, _, _, hp⟩ := (s.begin i).push_frame i.hWdata; simp [hp]
  | receive => obtain ⟨_, _, _, _, hr⟩ := (s.begin i).receive_frame i.rxData; simp [hr]
  | report => obtain ⟨_, _, _, _, _, hn⟩ := (s.begin i).sendNext_frame; simp [hn]
  | _ => simp

/-- What a tick of DRIVE leaves (42_onewire_primitives.md R141). -/
theorem State.driveTick_keeps (s : State) :
    s.driveTick.owOp = s.owOp ∧ s.driveTick.owPrim = s.owPrim ∧ s.driveTick.owBitn = s.owBitn ∧
    s.driveTick.owLmask = s.owLmask ∧ s.driveTick.owPresent = s.owPresent ∧ s.driveTick.owRdbit = s.owRdbit ∧
    s.driveTick.owData = s.owData ∧ s.driveTick.owMask = s.owMask := by
  unfold State.driveTick
  split <;> simp

/-- Settles O37: in IDLE the tick is its action; in DRIVE it is a sequencer tick of the one-wire unit. -/
theorem sequencerTickInIdleAndDrive : Obligations.SequencerTickInIdleAndDrive := by
  rintro s i rfl hrst
  obtain ⟨t, ht⟩ := step_completes s
  refine ⟨t, ht, fun hidle hno => ?idle, fun hdrive => ?drive⟩
  case idle =>
    obtain ⟨hphase, hcnt, hop, hprim, hbitn, hlmask, hpresent, hrdbit⟩ := (step_of_idle hrst hidle ht).keeps_sequencer hno
    exact ⟨hphase.trans hidle, hcnt, hop, hprim, hbitn, hlmask, hpresent, hrdbit,
      (step_owOe ht).trans (State.owOe_of_not_drive (by simp [hidle]))⟩
  case drive =>
    have hunit := step_oneWire hrst (by simp [hdrive]) ht
    rw [hdrive, State.owTick] at hunit
    simp only [hunit.elements, State.driveTick_keeps, step_owOe ht, State.owOe_of_drive hdrive, true_and]
    refine ⟨fun hlast => ?_, fun hmore => ?_⟩
    · rw [State.driveTick, if_pos hlast]
      exact ⟨rfl, rfl⟩
    · rw [State.driveTick, if_neg hmore]
      exact ⟨hdrive, rfl⟩

/-- The sample, where its tick has come, by the primitive (42_onewire_primitives.md R142, 43_onewire_bytes.md R171). -/
theorem State.sampleAtItsTick_results (s : State) (v : Byte) :
    (s.sampleAtItsTick v).owPresent = (if s.owPrim = .reset ∧ s.owCnt = s.params.timing.sampleReset then
      present v s.owLmask else s.owPresent) ∧
    (s.sampleAtItsTick v).owRdbit = (if s.owPrim = .read ∧ s.owCnt = s.params.timing.sampleRead then
      rdbit s.params.rdCombine v s.owLmask else s.owRdbit) ∧
    (s.sampleAtItsTick v).owData = (if s.owPrim = .read ∧ s.owCnt = s.params.timing.sampleRead ∧ s.owOp = .recvbyte then
      shiftIn (rdbit s.params.rdCombine v s.owLmask) s.owData else s.owData) := by
  unfold State.sampleAtItsTick State.takeSample
  cases hp : s.owPrim with
  | write0 => simp [Params.tSmp]
  | write1 => simp [Params.tSmp]
  | reset => by_cases hc : s.owCnt = s.params.timing.sampleReset <;> simp [Params.tSmp, hc, eq_comm]
  | read => by_cases hc : s.owCnt = s.params.timing.sampleRead <;> simp [Params.tSmp, hc, eq_comm]

/-- The command and its lines, which the end of a primitive leaves (42_onewire_primitives.md R143). -/
@[simp] theorem State.endPrimitive_keeps_command (s : State) :
    s.endPrimitive.owOp = s.owOp ∧ s.endPrimitive.owPrim = s.owPrim ∧ s.endPrimitive.owLmask = s.owLmask ∧
    s.endPrimitive.owMask = s.owMask := by
  unfold State.endPrimitive
  split <;> exact ⟨rfl, rfl, rfl, rfl⟩

@[simp] theorem State.endPrimitive_owCnt (s : State) : s.endPrimitive.owCnt = 0 := by
  unfold State.endPrimitive
  split <;> rfl

/-- One slot of a byte command is done (42_onewire_primitives.md R143). -/
theorem State.endPrimitive_of_byteOp {s : State} (h : s.owOp.isByteOp = true) :
    s.endPrimitive.owBitn = s.owBitn + 1#4 ∧
    s.endPrimitive.owPhase = if s.owBitn + 1#4 = 8#4 then .idle else .gap := by
  rw [State.endPrimitive, if_pos h]
  exact ⟨rfl, rfl⟩

/-- A command of one primitive is done with it (42_onewire_primitives.md R143). -/
theorem State.endPrimitive_of_not_byteOp {s : State} (h : s.owOp.isByteOp = false) :
    s.endPrimitive.owBitn = s.owBitn ∧ s.endPrimitive.owPhase = .idle := by
  rw [State.endPrimitive, if_neg (by simp [h])]
  exact ⟨rfl, rfl⟩

/-- What a tick of RELEASE leaves (42_onewire_primitives.md R142). -/
theorem State.releaseTick_keeps (s : State) (v : Byte) :
    (s.releaseTick v).owOp = s.owOp ∧ (s.releaseTick v).owPrim = s.owPrim ∧ (s.releaseTick v).owLmask = s.owLmask ∧
    (s.releaseTick v).owMask = s.owMask := by
  obtain ⟨_, _, _, hs⟩ := s.sampleAtItsTick_frame v
  unfold State.releaseTick
  split <;> simp [hs]

/-- The sample of a tick of RELEASE, where its tick has come (42_onewire_primitives.md R142). -/
theorem State.releaseTick_results (s : State) (v : Byte) :
    (s.releaseTick v).owPresent = (if s.owPrim = .reset ∧ s.owCnt = s.params.timing.sampleReset then
      present v s.owLmask else s.owPresent) ∧
    (s.releaseTick v).owRdbit = (if s.owPrim = .read ∧ s.owCnt = s.params.timing.sampleRead then
      rdbit s.params.rdCombine v s.owLmask else s.owRdbit) ∧
    (s.releaseTick v).owData = (if s.owPrim = .read ∧ s.owCnt = s.params.timing.sampleRead ∧ s.owOp = .recvbyte then
      shiftIn (rdbit s.params.rdCombine v s.owLmask) s.owData else s.owData) := by
  have hsample := s.owTick_sample .release v
  rw [if_pos rfl] at hsample
  obtain ⟨hpresent, hrdbit, hdata⟩ := hsample
  have hresults := s.sampleAtItsTick_results v
  rwa [← hpresent, ← hrdbit, ← hdata] at hresults

/-- The ticks of RELEASE before its last count (42_onewire_primitives.md R142). -/
theorem State.releaseTick_of_more {s : State} (h : s.owCnt + 1 ≠ s.params.tRel s.owPrim) (v : Byte) :
    (s.releaseTick v).owPhase = s.owPhase ∧ (s.releaseTick v).owCnt = s.owCnt + 1 ∧ (s.releaseTick v).owBitn = s.owBitn := by
  obtain ⟨_, _, _, hs⟩ := s.sampleAtItsTick_frame v
  rw [State.releaseTick, if_neg h, hs]
  exact ⟨rfl, rfl, rfl⟩

/-- The last tick of RELEASE ends the primitive. -/
theorem State.releaseTick_of_last {s : State} (h : s.owCnt + 1 = s.params.tRel s.owPrim) (v : Byte) :
    s.releaseTick v = (s.sampleAtItsTick v).endPrimitive := if_pos h

/-- Settles O38: the tick is a sequencer tick of the one-wire unit, its results those of the sample, its end that of the
primitive. -/
theorem sequencerTickInRelease : Obligations.SequencerTickInRelease := by
  rintro s i rfl hrst hrelease
  obtain ⟨t, ht⟩ := step_completes s
  have hunit := step_oneWire hrst (by simp [hrelease]) ht
  rw [hrelease, State.owTick] at hunit
  refine ⟨t, ht, (step_owOe ht).trans (State.owOe_of_not_drive (by simp [hrelease])), ?_⟩
  obtain ⟨hpresent, hrdbit, hdata⟩ := s.releaseTick_results (s.inputAt 0).owIn
  simp only [hunit.elements, State.releaseTick_keeps, true_and]
  refine ⟨hpresent, hrdbit, hdata, fun hmore => ?counts, fun hlast => ?ends⟩
  case counts => simp [State.releaseTick_of_more hmore, hrelease]
  case ends =>
    rw [State.releaseTick_of_last hlast]
    obtain ⟨_, hop, hbitn⟩ := s.sampleAtItsTick_keeps (s.inputAt 0).owIn
    refine ⟨State.endPrimitive_owCnt _, fun hbyte => ?_, fun hsend hrecv => ?_⟩
    · have hend := State.endPrimitive_of_byteOp (hop ▸ (OwOp.isByteOp_iff _).mpr hbyte)
      rwa [hbitn] at hend
    · have hsingle : s.owOp.isByteOp = false := by simp [← Bool.not_eq_true, OwOp.isByteOp_iff, hsend, hrecv]
      have hend := State.endPrimitive_of_not_byteOp (hop ▸ hsingle)
      rwa [hbitn] at hend

end Sys2Proof.Machine
end

section
/-! SUPPORT. A one-wire primitive as a run (42_onewire_primitives.md R144 to R147, R150): the one-wire unit in each tick from
the first driven one to the tick after the last released one, and the four commands of one primitive told from it. -/

namespace Sys2Proof.Machine

/-! ## The unit inside a primitive -/

/-- The unit in RELEASE of a primitive that starts in `x`, its sample taken if the sample's tick is among the primitive's first
`n`, `v k` being the line levels in tick `k` of the primitive. -/
def State.released (x : State) (v : Nat → Byte) (n : Nat) : State :=
  x.toRelease.sampledBy (fun k => v (x.params.tDrv x.owPrim + k)) (n - x.params.tDrv x.owPrim)

/-- The unit `n` ticks after the first driven tick of that primitive (42_onewire_primitives.md R150). -/
def State.inPrimitive (x : State) (v : Nat → Byte) (n : Nat) : State :=
  if n < x.params.tDrv x.owPrim then x.withCnt n
  else if n < x.params.tDrv x.owPrim + x.params.tRel x.owPrim then (x.released v n).withCnt (n - x.params.tDrv x.owPrim)
  else (x.released v n).endPrimitive

section Phases

variable {x : State} {v : Nat → Byte} {n : Nat}

theorem State.inPrimitive_of_driven (h : n < x.params.tDrv x.owPrim) : x.inPrimitive v n = x.withCnt n := if_pos h

theorem State.inPrimitive_of_released (h : x.params.tDrv x.owPrim ≤ n)
    (h' : n < x.params.tDrv x.owPrim + x.params.tRel x.owPrim) :
    x.inPrimitive v n = (x.released v n).withCnt (n - x.params.tDrv x.owPrim) := by
  rw [State.inPrimitive, if_neg (Nat.not_lt.mpr h), if_pos h']

theorem State.inPrimitive_of_ended (h : n = x.params.tDrv x.owPrim + x.params.tRel x.owPrim) :
    x.inPrimitive v n = (x.released v n).endPrimitive := by
  rw [State.inPrimitive, if_neg (by omega), if_neg (by omega)]

theorem State.released_owPhase : (x.released v n).owPhase = .release := (State.sampledBy_keeps _ _ _).1

end Phases

/-- The one-wire unit follows the primitive from its first driven tick to its end. -/
theorem OneWireAfter.primitive {m n N : Nat} {s x : State} (h : OneWireAfter m s x) (hrst : NoReset N s) (hN : m + n ≤ N)
    (hphase : x.owPhase = .drive) (hcnt : x.owCnt = 0) (hn : n ≤ x.params.tDrv x.owPrim + x.params.tRel x.owPrim) :
    OneWireAfter (m + n) s (x.inPrimitive (fun k => (s.inputAt (m + k)).owIn) n) := by
  by_cases hdriven : n < x.params.tDrv x.owPrim
  · rw [State.inPrimitive_of_driven hdriven]
    exact h.drive_counts hrst hN hphase hcnt hdriven
  · obtain ⟨k, rfl⟩ := Nat.exists_eq_add_of_le (Nat.le_of_not_lt hdriven)
    have hbegins := h.drive_ends hrst (by omega) hphase hcnt
    by_cases hreleased : k < x.params.tRel x.owPrim
    · have hcounts := hbegins.release_counts hrst (by omega) rfl rfl hreleased
      rw [State.inPrimitive_of_released (Nat.le_add_right _ _) (by omega), State.released]
      simpa only [Nat.add_assoc, Nat.add_sub_cancel_left] using hcounts
    · obtain rfl : k = x.params.tRel x.owPrim := by omega
      have hends : OneWireAfter (m + x.params.tDrv x.owPrim + x.params.tRel x.owPrim) s
          (x.toRelease.sampledBy _ (x.params.tRel x.owPrim)).endPrimitive :=
        hbegins.release_ends hrst (Nat.add_assoc _ _ _ ▸ hN) rfl rfl
      rw [State.inPrimitive_of_ended rfl, State.released]
      simpa only [Nat.add_assoc, Nat.add_sub_cancel_left] using hends

/-- Settles O40: DRIVE counts and drives, RELEASE counts and drives nothing, and the primitive ends. -/
theorem waveformOfOnePrimitive : Obligations.WaveformOfOnePrimitive := by
  intro s n hphase hcnt hn hrst
  have hstart : OneWireAfter 0 s s := ⟨s, rfl, rfl⟩
  have hrun := hstart.primitive hrst (Nat.zero_add n).le hphase hcnt hn
  rw [Nat.zero_add] at hrun
  obtain ⟨t, ht, hunit⟩ := hrun
  refine ⟨t, ht, fun hdriven => ?driven, fun hdriven hreleased => ?released, fun hended => ?ended⟩
  case driven =>
    rw [State.inPrimitive_of_driven hdriven] at hunit
    obtain ⟨htphase, _, _, htcnt, _, hlmask, _⟩ := hunit.elements
    have hdrive : t.owPhase = .drive := htphase.trans hphase
    exact ⟨hdrive, htcnt, (State.owOe_of_drive hdrive).trans hlmask⟩
  case released =>
    rw [State.inPrimitive_of_released hdriven hreleased] at hunit
    obtain ⟨htphase, _, _, htcnt, _⟩ := hunit.elements
    have hrelease : t.owPhase = .release := htphase.trans State.released_owPhase
    exact ⟨hrelease, htcnt, State.owOe_of_not_drive (by simp [hrelease])⟩
  case ended =>
    rw [State.inPrimitive_of_ended hended] at hunit
    obtain ⟨htphase, _, _, htcnt, _⟩ := hunit.elements
    have hnext : t.owPhase = .idle ∨ t.owPhase = .gap := by
      rw [htphase]
      rcases State.endPrimitive_phase _ with hgap | ⟨hidle, _⟩
      · exact .inr hgap
      · exact .inl hidle
    refine ⟨hnext, htcnt.trans (State.endPrimitive_owCnt _), State.owOe_of_not_drive ?_⟩
    rcases hnext with h | h <;> simp [h]

/-! ## What a primitive leaves and writes -/

theorem State.released_of_driven {x : State} {n : Nat} (h : n < x.params.tDrv x.owPrim) (v : Nat → Byte) :
    x.released v n = x.toRelease :=
  State.sampledBy_of_not_lt fun _ _ => by omega

/-- The unit in RELEASE by whether its primitive samples (00_scope.md R8, 42_onewire_primitives.md R142). -/
theorem State.released_of_sample {x : State} {k : Nat} (h : x.params.tSmp x.owPrim = some k) (v : Nat → Byte) (n : Nat) :
    x.released v n = if x.params.tDrv x.owPrim + k < n then x.toRelease.takeSample (v (x.params.tDrv x.owPrim + k))
      else x.toRelease := by
  have hsmp : x.toRelease.params.tSmp x.toRelease.owPrim = some k := h
  split
  · next hk => exact State.sampledBy_of_lt hsmp (by omega)
  · next hk =>
    refine State.sampledBy_of_not_lt fun j hj => ?_
    rw [hsmp, Option.some.injEq] at hj
    omega

theorem State.released_of_no_sample {x : State} (h : x.params.tSmp x.owPrim = none) (v : Nat → Byte) (n : Nat) :
    x.released v n = x.toRelease :=
  State.sampledBy_of_not_lt fun k hk => absurd (h.symm.trans hk) (by simp)

/-- The command, its lines and its bit count, which a sample leaves. -/
theorem State.released_keeps (x : State) (v : Nat → Byte) (n : Nat) :
    (x.released v n).owOp = x.owOp ∧ (x.released v n).owLmask = x.owLmask ∧ (x.released v n).owBitn = x.owBitn := by
  unfold State.released State.sampledBy
  split
  · next k _ =>
    obtain ⟨_, _, _, h⟩ := x.toRelease.takeSample_frame (v (x.params.tDrv x.owPrim + k))
    rw [h]
    split <;> exact ⟨rfl, rfl, rfl⟩
  · exact ⟨rfl, rfl, rfl⟩

/-- Throughout a primitive the results and the data byte are the ones its sample makes. -/
theorem State.inPrimitive_results (x : State) (v : Nat → Byte) (n : Nat) :
    (x.inPrimitive v n).owPresent = (x.released v n).owPresent ∧ (x.inPrimitive v n).owRdbit = (x.released v n).owRdbit ∧
    (x.inPrimitive v n).owData = (x.released v n).owData := by
  unfold State.inPrimitive
  split
  · next hdriven => rw [State.released_of_driven hdriven]; exact ⟨rfl, rfl, rfl⟩
  · split
    · exact ⟨rfl, rfl, rfl⟩
    · exact State.endPrimitive_keeps _

/-- Throughout a primitive that is a command of its own the command, its lines and the bit count stay. -/
theorem State.inPrimitive_keeps {x : State} (hsingle : x.owOp.isByteOp = false) (v : Nat → Byte) (n : Nat) :
    (x.inPrimitive v n).owOp = x.owOp ∧ (x.inPrimitive v n).owLmask = x.owLmask ∧
    (x.inPrimitive v n).owBitn = x.owBitn := by
  have hkeeps := x.released_keeps v n
  unfold State.inPrimitive
  split
  · exact ⟨rfl, rfl, rfl⟩
  · split
    · exact hkeeps
    · obtain ⟨hop, hlmask, hbitn⟩ := hkeeps
      obtain ⟨hend, _⟩ := State.endPrimitive_of_not_byteOp (s := x.released v n) (hop ▸ hsingle)
      simp [hop, hlmask, hbitn, hend]

/-! ## A command of one primitive -/

/-- The unit in RELEASE of a command accepted in the next tick, its sample taken if the sample's tick is among the first `n` of
its primitive. -/
def State.commandReleased (s : State) (op : OwOp) (n : Nat) : State :=
  (s.accept op).released (fun k => (s.inputAt (1 + k)).owIn) n

theorem State.commandReleased_of_sample {s : State} {op : OwOp} {prim : Prim} {k : Nat} (hprim : firstPrim s.owData op = prim)
    (h : s.params.tSmp prim = some k) (n : Nat) :
    s.commandReleased op n =
      if s.params.tDrv prim + k < n then (s.accept op).toRelease.takeSample (s.inputAt (1 + s.params.tDrv prim + k)).owIn
      else (s.accept op).toRelease := by
  subst hprim
  rw [Nat.add_assoc]
  exact State.released_of_sample (x := s.accept op) h _ n

theorem State.commandReleased_of_no_sample {s : State} {op : OwOp} {prim : Prim} (hprim : firstPrim s.owData op = prim)
    (h : s.params.tSmp prim = none) (n : Nat) : s.commandReleased op n = (s.accept op).toRelease := by
  subst hprim
  exact State.released_of_no_sample (x := s.accept op) h _ n

/-- `t` is what a command of the one primitive `prim`, accepted in the next tick, leaves `n` ticks after its first driven tick
(42_onewire_primitives.md R144 to R147). -/
structure SinglePrimitive (s : State) (op : OwOp) (prim : Prim) (n : Nat) (t : State) : Prop where
  command : t.owOp = op ∧ t.owLmask = s.owMask ∧ t.owBitn = 0#4
  driven : n < s.params.tDrv prim → t.owPhase = .drive
  released : s.params.tDrv prim ≤ n → n < s.params.tDrv prim + s.params.tRel prim → t.owPhase = .release
  finished : n = s.params.tDrv prim + s.params.tRel prim → t.owPhase = .idle
  results : t.owPresent = (s.commandReleased op n).owPresent ∧ t.owRdbit = (s.commandReleased op n).owRdbit ∧
    t.owData = (s.commandReleased op n).owData

/-- A command of one primitive, written in IDLE, runs its primitive and is idle after. -/
theorem singlePrimitive_run {s : State} {n : Nat} {op : OwOp} {prim : Prim} (hop : op ≠ .noCommand)
    (hsingle : op.isByteOp = false) (hprim : firstPrim s.owData op = prim) (hidle : s.owPhase = .idle)
    (hc : (s.inputAt 0).commands op) (hn : n ≤ s.params.tDrv prim + s.params.tRel prim) (hrst : NoReset (n + 1) s) :
    ∃ t, afterTicks (n + 1) s = some t ∧ SinglePrimitive s op prim n t := by
  subst hprim
  have hstart := OneWireAfter.accept hop hidle hc (hrst 0 (Nat.succ_pos n))
  obtain ⟨t, ht, hunit⟩ := hstart.primitive hrst (Nat.add_comm 1 n).le rfl rfl hn
  obtain ⟨hphase, htop, _, _, hbitn, hlmask, _, hdata, hpresent, hrdbit⟩ := hunit.elements
  have hcommand := State.inPrimitive_keeps (x := s.accept op) hsingle (fun k => (s.inputAt (1 + k)).owIn) n
  have hresults := (s.accept op).inPrimitive_results (fun k => (s.inputAt (1 + k)).owIn) n
  rw [← htop, ← hlmask, ← hbitn] at hcommand
  rw [← hpresent, ← hrdbit, ← hdata] at hresults
  refine ⟨t, Nat.add_comm 1 n ▸ ht, hcommand, fun hdriven => ?driven, fun hdriven hreleased => ?released,
    fun hended => ?finished, hresults⟩
  case driven =>
    rw [hphase, State.inPrimitive_of_driven hdriven]
    rfl
  case released =>
    rw [hphase, State.inPrimitive_of_released hdriven hreleased]
    exact State.released_owPhase
  case finished =>
    rw [hphase, State.inPrimitive_of_ended hended]
    refine (State.endPrimitive_of_not_byteOp ?_).2
    rw [(State.released_keeps _ _ _).1]
    exact hsingle

/-- Settles O41: the sample of RESET writes OW_PRESENT. -/
theorem resetCommandRun : Obligations.ResetCommandRun := by
  intro s n hidle hc hn hrst
  obtain ⟨t, ht, ⟨hop, hlmask, hbitn⟩, hdriven, hreleased, hfinished, hpresent, hrdbit, hdata⟩ :=
    singlePrimitive_run (op := .reset) (by decide) rfl rfl hidle hc hn hrst
  refine ⟨t, ht, hop, hlmask, hbitn, hdriven, hreleased, hfinished, ?_⟩
  rw [hpresent, hrdbit, hdata, State.commandReleased_of_sample (prim := .reset) rfl rfl]
  split <;> exact ⟨rfl, rfl, rfl⟩

/-- Settles O42: the write primitives take no sample. -/
theorem writeCommandRun : Obligations.WriteCommandRun := by
  intro s n op prim hwrite hidle hc hn hrst
  obtain ⟨hop, hsingle, hprim, hnone⟩ : op ≠ .noCommand ∧ op.isByteOp = false ∧ firstPrim s.owData op = prim ∧
      s.params.tSmp prim = none := by
    rcases hwrite with ⟨rfl, rfl⟩ | ⟨rfl, rfl⟩ <;> exact ⟨by decide, rfl, rfl, rfl⟩
  obtain ⟨t, ht, ⟨htop, hlmask, hbitn⟩, hdriven, hreleased, hfinished, hpresent, hrdbit, hdata⟩ :=
    singlePrimitive_run hop hsingle hprim hidle hc hn hrst
  rw [State.commandReleased_of_no_sample hprim hnone] at hpresent hrdbit hdata
  exact ⟨t, ht, htop, hlmask, hbitn, hdriven, hreleased, hfinished, hpresent, hrdbit, hdata⟩

/-- Settles O43: the sample of READ writes OW_RDBIT, and OW_DATA only inside OW.RECVBYTE. -/
theorem readbitCommandRun : Obligations.ReadbitCommandRun := by
  intro s n hidle hc hn hrst
  obtain ⟨t, ht, ⟨hop, hlmask, hbitn⟩, hdriven, hreleased, hfinished, hpresent, hrdbit, hdata⟩ :=
    singlePrimitive_run (op := .readbit) (by decide) rfl rfl hidle hc hn hrst
  refine ⟨t, ht, hop, hlmask, hbitn, hdriven, hreleased, hfinished, ?_⟩
  rw [hpresent, hrdbit, hdata, State.commandReleased_of_sample (prim := .read) rfl rfl]
  split <;> exact ⟨rfl, rfl, rfl⟩

end Sys2Proof.Machine
end

section
/-! SUPPORT. The byte commands slot by slot (43_onewire_bytes.md R170 to R174): a tick of the gap, a slot as the run of its
primitive and the gap after it, and the two byte commands told from their slots. -/

namespace Sys2Proof.Machine

/-! ## A tick of GAP -/

/-- What a tick of GAP leaves (43_onewire_bytes.md R172). -/
theorem State.gapTick_keeps (s : State) :
    s.gapTick.owOp = s.owOp ∧ s.gapTick.owBitn = s.owBitn ∧ s.gapTick.owLmask = s.owLmask ∧ s.gapTick.owMask = s.owMask ∧
    s.gapTick.owData = s.owData ∧ s.gapTick.owPresent = s.owPresent ∧ s.gapTick.owRdbit = s.owRdbit := by
  unfold State.gapTick
  split <;> simp

/-- In a tick that starts in GAP the ports show BUSY and not CRIT, and events are taken as in IDLE. -/
theorem step_ports_of_gap {s t : State} (hgap : s.owPhase = .gap) (hrst : (s.inputAt 0).rst = false) (h : step s = .next t) :
    t.out.owOe = 0#8 ∧ t.out.owBusy = true ∧ t.out.evSuspend = false ∧
    t.out.rxReady = (s.rxEn && !s.inReady && !(s.inputAt 0).hReq) ∧
    t.out.txcReady = (s.txEn && !(s.inputAt 0).hReq && !((s.inputAt 0).rxValid && t.out.rxReady)) := by
  obtain ⟨_, hbusy, hsuspend, _, _, hrx, htxc⟩ := portsShowTheStateAtTheStartOfTheTick s t _ rfl h
  have hbusy' : t.out.owBusy = true := by simp [hbusy, hgap]
  have hsuspend' : t.out.evSuspend = false := by simp [hsuspend, hgap]
  rw [hsuspend', hrst, Bool.not_false, Bool.and_true, Bool.and_true] at hrx htxc
  exact ⟨(step_owOe h).trans (State.owOe_of_not_drive (by simp [hgap])), hbusy', hsuspend', hrx, htxc⟩

/-- Settles O39: the tick is a sequencer tick of the one-wire unit, and its ports those of GAP. -/
theorem sequencerTickInGap : Obligations.SequencerTickInGap := by
  rintro s i rfl hrst hgap -
  obtain ⟨t, ht⟩ := step_completes s
  obtain ⟨hoe, hbusy, hsuspend, hrx, htxc⟩ := step_ports_of_gap hgap hrst ht
  have hunit := step_oneWire hrst (by simp [hgap]) ht
  rw [hgap, State.owTick] at hunit
  refine ⟨t, ht, hoe, hbusy, hsuspend, hrx, htxc, ?_⟩
  simp only [hunit.elements, State.gapTick_keeps, true_and]
  refine ⟨fun hmore => ?counts, fun hlast => ?nextSlot⟩
  case counts =>
    rw [State.gapTick, if_neg hmore]
    exact ⟨hgap, rfl, rfl⟩
  case nextSlot =>
    rw [State.gapTick, if_pos hlast]
    exact ⟨rfl, rfl, fun hop => by rw [hop]; rfl, fun hop => by rw [hop]; rfl⟩

/-! ## One slot -/

/-- The one-wire unit stands at the first driven tick of slot `k` of a byte command. -/
structure SlotBegins (x : State) (k : Nat) : Prop where
  phase : x.owPhase = .drive
  count : x.owCnt = 0
  byteOp : x.owOp.isByteOp = true
  bitn : x.owBitn = BitVec.ofNat 4 k
  inRange : k ≤ 7

section Slot

variable {x : State} {v : Nat → Byte} {n : Nat}

theorem State.inPrimitive_of_after (h : x.params.tDrv x.owPrim + x.params.tRel x.owPrim ≤ n) :
    x.inPrimitive v n = (x.released v n).endPrimitive := by
  rw [State.inPrimitive, if_neg (by omega), if_neg (by omega)]

/-- The sample is taken before the end of RELEASE (00_scope.md R8), so that the ticks after it add nothing. -/
theorem State.released_of_after (h : x.params.tDrv x.owPrim + x.params.tRel x.owPrim ≤ n) :
    x.released v n = x.released v (x.params.tDrv x.owPrim + x.params.tRel x.owPrim) := by
  cases hsmp : x.params.tSmp x.owPrim with
  | none => rw [State.released_of_no_sample hsmp, State.released_of_no_sample hsmp]
  | some k =>
    have hsample := Params.tSmp_lt_tRel x.params hsmp
    rw [State.released_of_sample hsmp, State.released_of_sample hsmp, if_pos (by omega), if_pos (by omega)]

/-- The primitive and the parameters, which a sample leaves. -/
theorem State.released_keeps_prim (x : State) (v : Nat → Byte) (n : Nat) :
    (x.released v n).owPrim = x.owPrim ∧ (x.released v n).params = x.params :=
  (State.sampledBy_keeps _ _ _).2

theorem State.endPrimitive_params (s : State) : s.endPrimitive.params = s.params := by
  unfold State.endPrimitive
  split <;> rfl

/-- Throughout a primitive and after its end the command, its lines and the parameters stay. -/
theorem State.inPrimitive_keeps_command (x : State) (v : Nat → Byte) (n : Nat) :
    (x.inPrimitive v n).owOp = x.owOp ∧ (x.inPrimitive v n).owLmask = x.owLmask ∧ (x.inPrimitive v n).params = x.params := by
  obtain ⟨hop, hlmask, _⟩ := x.released_keeps v n
  obtain ⟨_, hparams⟩ := x.released_keeps_prim v n
  unfold State.inPrimitive
  split
  · exact ⟨rfl, rfl, rfl⟩
  · split
    · exact ⟨hop, hlmask, hparams⟩
    · simp [State.endPrimitive_params, hop, hlmask, hparams]

theorem SlotBegins.toNat_bitn {k : Nat} (h : SlotBegins x k) : x.owBitn.toNat = k := by
  have hk := h.inRange
  rw [h.bitn, BitVec.toNat_ofNat]
  omega

/-- The end of the primitive of slot `k` (42_onewire_primitives.md R143). -/
theorem SlotBegins.endPrimitive {k : Nat} (h : SlotBegins x k) (v : Nat → Byte) (n : Nat) :
    (x.released v n).endPrimitive.owBitn = BitVec.ofNat 4 (k + 1) ∧
    (x.released v n).endPrimitive.owPhase = if k = 7 then .idle else .gap := by
  have hk := h.inRange
  obtain ⟨hop, _, hbitn⟩ := x.released_keeps v n
  obtain ⟨hcounted, hphase⟩ := State.endPrimitive_of_byteOp (hop ▸ h.byteOp)
  have hnext : x.owBitn + 1#4 = BitVec.ofNat 4 (k + 1) := by rw [h.bitn]; simp [BitVec.ofNat_add]
  have hlast : BitVec.ofNat 4 (k + 1) = 8#4 ↔ k = 7 := by
    simp only [← BitVec.toNat_inj, BitVec.toNat_ofNat]
    omega
  rw [hbitn, hnext] at hcounted hphase
  simp only [hlast] at hphase
  exact ⟨hcounted, hphase⟩

/-- The unit of the slot's primitive, its gap included, stands where 43_onewire_bytes.md R172 says. -/
theorem SlotBegins.inSlot {k : Nat} (h : SlotBegins x k) (v : Nat → Byte) (n : Nat) :
    InSlot (x.inPrimitive v n) k n x.owPrim := by
  obtain ⟨_, _, hparams⟩ := x.inPrimitive_keeps_command v n
  obtain ⟨hcounted, hphase⟩ := h.endPrimitive v n
  obtain ⟨hprim, _⟩ := x.released_keeps_prim v n
  obtain ⟨_, _, hbitn⟩ := x.released_keeps v n
  have hk := h.inRange
  constructor <;> rw [hparams]
  case driven =>
    intro hdriven
    rw [State.inPrimitive_of_driven hdriven]
    exact ⟨h.phase, rfl, h.toNat_bitn⟩
  case released =>
    intro hdriven hreleased
    rw [State.inPrimitive_of_released hdriven hreleased]
    exact ⟨State.released_owPhase, hprim, hbitn ▸ h.toNat_bitn⟩
  case between =>
    intro hended hmore _
    rw [State.inPrimitive_of_after hended, hphase, hcounted, if_neg hmore.ne, BitVec.toNat_ofNat]
    exact ⟨rfl, by omega⟩
  case finished =>
    intro hended hlast
    rw [State.inPrimitive_of_after hended.ge, hphase, hcounted, if_pos hlast, hlast]
    exact ⟨rfl, rfl⟩

/-- A slot does not depend on the count, nor on the transport. -/
theorem InSlot.of_oneWireAs {t y : State} {k c : Nat} {prim : Prim} (h : InSlot y k n prim) (ht : t.OneWireAs (y.withCnt c)) :
    InSlot t k n prim := by
  rw [ht]
  exact ⟨h.driven, h.released, h.between, h.finished⟩

end Slot

/-- The one-wire unit, but for its count, follows the primitive of a slot that has begun through its gap. -/
theorem OneWireAfter.slot {p n k N : Nat} {s x : State} (h : OneWireAfter p s x) (hslot : SlotBegins x k) (hrst : NoReset N s)
    (hN : p + n ≤ N) (hn : n < x.params.tDrv x.owPrim + x.params.tRel x.owPrim + x.params.tGap)
    (hgap : k < 7 ∨ n ≤ x.params.tDrv x.owPrim + x.params.tRel x.owPrim) :
    ∃ c, OneWireAfter (p + n) s ((x.inPrimitive (fun j => (s.inputAt (p + j)).owIn) n).withCnt c) := by
  by_cases hprimitive : n ≤ x.params.tDrv x.owPrim + x.params.tRel x.owPrim
  · have hrun := h.primitive hrst hN hslot.phase hslot.count hprimitive
    rw [← State.withCnt_of_eq (x := x.inPrimitive _ n) rfl] at hrun
    exact ⟨_, hrun⟩
  · have hmore : k ≠ 7 := by omega
    obtain ⟨c, rfl⟩ := Nat.exists_eq_add_of_le (Nat.le_of_not_le hprimitive)
    have hended := h.primitive hrst (by omega) hslot.phase hslot.count le_rfl
    rw [State.inPrimitive_of_ended rfl, ← State.released_of_after (Nat.le_add_right _ c)] at hended
    have hphase (v : Nat → Byte) (j : Nat) : (x.released v j).endPrimitive.owPhase = .gap :=
      have ⟨_, hends⟩ := hslot.endPrimitive v j
      hends.trans (if_neg hmore)
    have hticks (v : Nat → Byte) (j : Nat) : c < (x.released v j).endPrimitive.params.tGap := by
      obtain ⟨_, hparams⟩ := x.released_keeps_prim v j
      rw [State.endPrimitive_params, hparams]
      omega
    have hcounts := hended.gap_counts hrst (by omega) (hphase _ _) (State.endPrimitive_owCnt _) (hticks _ _)
    rw [Nat.add_assoc] at hcounts
    exact ⟨c, State.inPrimitive_of_after (Nat.le_add_right _ c) ▸ hcounts⟩

/-- The state `n` ticks after the first driven tick of a slot, its results and data byte being those its sample makes. -/
theorem OneWireAfter.slot_run {p n k N : Nat} {s x y : State} (h : OneWireAfter p s x) (hslot : SlotBegins x k)
    (hrst : NoReset N s) (hN : p + n ≤ N) (hn : n < x.params.tDrv x.owPrim + x.params.tRel x.owPrim + x.params.tGap)
    (hgap : k < 7 ∨ n ≤ x.params.tDrv x.owPrim + x.params.tRel x.owPrim)
    (hy : x.released (fun j => (s.inputAt (p + j)).owIn) n = y) :
    ∃ t, afterTicks (p + n) s = some t ∧ InSlot t k n x.owPrim ∧ t.owOp = x.owOp ∧ t.owLmask = x.owLmask ∧
      t.params = x.params ∧ t.owPresent = y.owPresent ∧ t.owRdbit = y.owRdbit ∧ t.owData = y.owData := by
  subst hy
  obtain ⟨c, t, ht, hunit⟩ := h.slot hslot hrst hN hn hgap
  obtain ⟨_, htop, _, _, _, htlmask, _, htdata, htpresent, htrdbit⟩ := hunit.elements
  obtain ⟨hop, hlmask, hparams⟩ := x.inPrimitive_keeps_command (fun j => (s.inputAt (p + j)).owIn) n
  obtain ⟨hpresent, hrdbit, hdata⟩ := x.inPrimitive_results (fun j => (s.inputAt (p + j)).owIn) n
  exact ⟨t, ht, (hslot.inSlot _ n).of_oneWireAs hunit, htop.trans hop, htlmask.trans hlmask, hunit.params.trans hparams,
    htpresent.trans hpresent, htrdbit.trans hrdbit, htdata.trans hdata⟩

/-! ## The two byte commands -/

theorem slotBegins_sendSlot (s : State) {k : Nat} (hk : k ≤ 7) : SlotBegins (sendSlot s k) k := ⟨rfl, rfl, rfl, rfl, hk⟩

theorem slotBegins_recvSlot (s : State) {k : Nat} (hk : k ≤ 7) : SlotBegins (recvSlot s k) k := ⟨rfl, rfl, rfl, rfl, hk⟩

/-- Settles O44: slot `k` begins at its time, and a write primitive takes no sample. -/
theorem sendbyteCommandRun : Obligations.SendbyteCommandRun := by
  intro s k m slot hidle hc hslot hk hm hgap hrst
  obtain rfl : slot = sendPrim s := funext hslot
  have hticks : slotStart s.params (sendPrim s) k + m + 1 = 1 + slotStart s.params (sendPrim s) k + m := by omega
  rw [hticks] at hrst ⊢
  have hbegins := OneWireAfter.sendSlot_begins hidle hc hrst hk (Nat.le_add_right _ m)
  have hnoSample := State.released_of_no_sample (x := sendSlot s k) (Params.tSmp_writePrim s.params _)
  obtain ⟨t, ht, hin, hop, hlmask, hparams, hpresent, hrdbit, hdata⟩ :=
    hbegins.slot_run (slotBegins_sendSlot s hk) hrst le_rfl hm hgap (hnoSample _ m)
  exact ⟨t, ht, hin, hop, hlmask, hdata, hparams, hpresent, hrdbit⟩

/-- The unit in slot `k` of OW.RECVBYTE, `j` samples being taken: the slot's own counts from the tick after it on
(42_onewire_primitives.md R142, 43_onewire_bytes.md R171). -/
theorem released_recvSlot (s : State) {k m j : Nat}
    (hj : j = if m ≤ s.params.tDrv .read + s.params.timing.sampleRead then k else k + 1) :
    (recvSlot s k).released (fun i => (s.inputAt (1 + k * recvSlotTicks s.params + i)).owIn) m =
      { (recvSlot s k).toRelease with owData := receivedData s j, owRdbit := receivedBit s j } := by
  have hdriven : (recvSlot s k).params.tDrv (recvSlot s k).owPrim = s.params.tDrv .read := rfl
  rw [State.released_of_sample (x := recvSlot s k) (k := s.params.timing.sampleRead) rfl, hdriven]
  split at hj
  · next hbefore =>
    rw [if_neg (Nat.not_lt.mpr hbefore), hj]
    rfl
  · next hsampled =>
    rw [if_pos (Nat.lt_of_not_le hsampled), hj, ← Nat.add_assoc]
    rfl

/-- Settles O45: slot `k` begins at its time, and its sample is the next one of the accumulator. -/
theorem recvbyteCommandRun : Obligations.RecvbyteCommandRun := by
  intro s k m j hidle hc hk hm hgap hj hrst
  have hticks : k * (s.params.tDrv .read + s.params.tRel .read + s.params.tGap) + m + 1 =
      1 + k * recvSlotTicks s.params + m := by
    rw [recvSlotTicks]
    omega
  rw [hticks] at hrst ⊢
  have hbegins := OneWireAfter.recvSlot_begins hidle hc hrst hk (Nat.le_add_right _ m)
  obtain ⟨t, ht, hin, hop, hlmask, hparams, hpresent, hrdbit, hdata⟩ :=
    hbegins.slot_run (slotBegins_recvSlot s hk) hrst le_rfl hm hgap (released_recvSlot s hj)
  have hsamples : j ≤ 8 := by split at hj <;> omega
  refine ⟨t, ht, hin, hop, hlmask, hparams, hpresent, fun b hb => ?_, hrdbit.trans ?_⟩
  · rw [hdata]
    exact getLsbD_receivedData s hsamples hb
  · cases j <;> rfl

end Sys2Proof.Machine
end

section
/-! SUPPORT. The host register operations by themselves (44_host_access.md R190, R192, R199): the writes of the mask and of the
data byte, and the reserved words. -/

namespace Sys2Proof.Machine

/-- A write is decoded by its address and its data (30_encoding.md R82). -/
theorem decode_writeWord (addr d : Byte) : decode (.host (hostWord true addr d)) = .instr (decodeWrite addr d) :=
  decode_hostWord true addr d

/-! ## OW.SETMASK and OW.SETDATA -/

/-- Settles O52: the address chooses the write, and the phase whether it is done. -/
theorem maskAndDataWrites : Obligations.MaskAndDataWrites := by
  intro s v
  refine ⟨decode_writeWord 0x81#8 v, decode_writeWord 0x82#8 v, fun hidle => ?idle, fun hbusy => ?busy⟩
  case idle => exact ⟨exec_owSetmask_of_idle hidle v, exec_owSetdata_of_idle hidle v⟩
  case busy => exact ⟨exec_owSetmask_of_busy hbusy v, exec_owSetdata_of_busy hbusy v⟩

/-! ## The reserved words -/

/-- A write word is reserved exactly if it stands in the list: what a word names is well-formed, and a word of the list
names itself (44_host_access.md R199). -/
theorem decode_eq_rsvdW_iff (addr data : Byte) :
    decode (.host (hostWord true addr data)) = .instr (.rsvdW addr data) ↔ reservedWrite addr data = true where
  mp h := decode_wf h
  mpr h := by rw [decode_writeWord, decodeWrite_of_reserved h]

/-- And a read word exactly if its address does. -/
theorem decode_eq_rsvdR_iff (addr data : Byte) :
    decode (.host (hostWord false addr data)) = .instr (.rsvdR addr) ↔ reservedRead addr = true where
  mp h := decode_wf h
  mpr h := by rw [decode_readWord, decodeRead_of_reserved h]

/-- Settles O54: the list for writes and for reads, and the two operations' own arms. -/
theorem reservedOperations : Obligations.ReservedOperations :=
  ⟨fun addr data => ⟨decode_eq_rsvdW_iff addr data, decode_eq_rsvdR_iff addr data⟩, fun _ _ _ => ⟨rfl, rfl⟩⟩

end Sys2Proof.Machine
end

section
/-! SUPPORT. The block's two statements about exceptions (60_exceptions.md): no operation faults (R220), and the critical
section of the one-wire unit suspends both transceiver events (R227). -/

namespace Sys2Proof.Machine

/-- Settles O7: no arm of `exec` and no branch of `step` ends in a fault, and no fault value could be built. -/
theorem everyOperationAndEveryTickCompletes : Obligations.EveryOperationAndEveryTickCompletes :=
  ⟨exec_completes, step_completes, nofun⟩

/-! ## The critical section -/

/-- No receive event may occur in the critical section (40_transport_receive.md R101). -/
theorem State.rxOpen_of_crit {s : State} (h : s.owPhase.crit = true) : s.rxOpen = false := by simp [State.rxOpen, h]

/-- Nor may a transmit-complete event (41_transport_transmit.md R123). -/
theorem State.txOpen_of_crit {s : State} (h : s.owPhase.crit = true) : s.txOpen = false := by simp [State.txOpen, h]

/-- So neither handshake is ready, whatever the tick's inputs (10_state.md R45). -/
theorem State.ready_of_crit {s : State} (h : s.owPhase.crit = true) (i : Input) :
    s.rxReady i = false ∧ s.txcReady i = false := by
  simp [State.rxReady, State.txcReady, State.rxOpen_of_crit h, State.txOpen_of_crit h]

/-- And a tick without a host access performs no operation (60_exceptions.md R227). -/
theorem State.action_of_crit {s : State} {i : Input} (h : s.owPhase.crit = true) (hh : i.hReq = false) :
    s.action i = none :=
  State.action_of_nothing hh (by simp [State.rxOpen_of_crit h]) (by simp [State.txOpen_of_crit h])

/-- What `ev_suspend` shows: whether the tick started in the critical section (10_state.md R45). -/
theorem step_evSuspend {s t : State} (h : step s = .next t) : t.out.evSuspend = s.owPhase.crit := by
  obtain ⟨_, _, _, hout⟩ := step_ports h
  rw [hout]
  rfl

/-- A tick without an action leaves the transport side as it was and loads no byte: the sequencer writes none of it
(10_state.md R20). -/
theorem step_keeps_transport_of_none {s t : State} (hrst : (s.inputAt 0).rst = false)
    (hnone : s.action (s.inputAt 0) = none) (h : step s = .next t) :
    t.inBuf = s.inBuf ∧ t.inCur = s.inCur ∧ t.inReady = s.inReady ∧ t.rxEn = s.rxEn ∧ t.outBuf = s.outBuf ∧
    t.outCur = s.outCur ∧ t.txEn = s.txEn ∧ t.out.txWr = false := by
  rw [step_of_none hrst hnone] at h
  cases h
  simp [State.portsFor]

/-- A tick with a host access performs the operation its word names, and then the sequencer ticks; the phase makes no
difference (60_exceptions.md R224). -/
theorem step_access {s t : State} (hrst : (s.inputAt 0).rst = false) (hh : (s.inputAt 0).hReq = true)
    (h : step s = .next t) :
    ∃ u, exec (decodeHost (hostWord (s.inputAt 0).hWe (s.inputAt 0).hAddr (s.inputAt 0).hWdata)) (s.begin (s.inputAt 0)) =
      .next u ∧ t = u.owTick s.owPhase (s.inputAt 0).owIn := by
  obtain ⟨u, hu, hstep⟩ := step_completes_action hrst (State.action_of_access hh)
  rw [h] at hstep
  cases hstep
  exact ⟨u, hu, rfl⟩

/-- A read is answered in its own tick, whatever the phase (20_memory.md R61). -/
theorem step_read_hRdata {s t : State} (hrst : (s.inputAt 0).rst = false) (hh : (s.inputAt 0).hReq = true)
    (hwe : (s.inputAt 0).hWe = false) (h : step s = .next t) : t.out.hRdata = s.registerAt (s.inputAt 0).hAddr := by
  rw [step_of_read hrst hh hwe] at h
  cases h
  simp

/-- Settles O34: in DRIVE and RELEASE both events are closed and host accesses go on; in GAP the ports are those of IDLE. -/
theorem criticalSectionSuspendsBothEvents : Obligations.CriticalSectionSuspendsBothEvents := by
  rintro s i rfl
  obtain ⟨t, ht⟩ := step_completes s
  refine ⟨t, ht, fun hphase => ?critical, fun hgap hrst hh => ?gap⟩
  case critical =>
    have hcrit : s.owPhase.crit = true := s.owPhase.crit_iff.mpr hphase
    obtain ⟨hrx, htxc⟩ := step_ready ht
    obtain ⟨hnorx, hnotxc⟩ := State.ready_of_crit hcrit (s.inputAt 0)
    refine ⟨hrx.trans hnorx, htxc.trans hnotxc, (step_evSuspend ht).trans hcrit, fun hrst hh => ?noAccess,
      fun hrst hh => step_access hrst hh ht, fun hrst hh hwe haddr => ?status⟩
    case noAccess => exact step_keeps_transport_of_none hrst (State.action_of_crit hcrit hh) ht
    case status =>
      rw [step_read_hRdata hrst hh hwe ht, haddr]
      rfl
  case gap =>
    obtain ⟨_, _, hsuspend, hrx, htxc⟩ := step_ports_of_gap hgap hrst ht
    simp only [hh, Bool.not_false, Bool.and_true] at hrx htxc
    exact ⟨hsuspend, hrx, htxc⟩

end Sys2Proof.Machine
end

section
/-! SUPPORT. The reset tick (70_reset_and_hazards.md R250): the handshakes are closed, nothing is loaded, the elements take their
reset values, and the other ports still show the state at the start of the tick. -/

namespace Sys2Proof.Machine

/-- OW_OE whole (10_state.md R38). -/
theorem State.owOe_eq (s : State) : s.owOe = if s.owPhase = .drive then s.owLmask else 0#8 := by
  split
  next hdrive => exact State.owOe_of_drive hdrive
  next hdrive => exact State.owOe_of_not_drive hdrive

/-- No event is taken in a reset tick, whatever the state and the other inputs. -/
theorem State.ready_of_rst {i : Input} (hrst : i.rst = true) (s : State) :
    s.rxReady i = false ∧ s.txcReady i = false := by
  simp [State.rxReady, State.txcReady, hrst]

/-- No byte is loaded in a reset tick. -/
theorem step_txWr_of_rst {s t : State} (hrst : (s.inputAt 0).rst = true) (h : step s = .next t) : t.out.txWr = false := by
  rw [step_of_rst hrst] at h
  cases h
  simp [State.portsFor]

/-- Settles O10: the elements are those of the reset state, the handshakes and the load are off, and the ports that are functions
of the state show its start, as in any tick. -/
theorem resetTickEndsInTheResetState : Obligations.ResetTickEndsInTheResetState := by
  intro s hrst
  have ht := step_of_rst hrst
  obtain ⟨hrx, htxc⟩ := step_ready ht
  obtain ⟨hnorx, hnotxc⟩ := State.ready_of_rst hrst s
  obtain ⟨_, hbusy, hsuspend, hirq, hpresent, _⟩ := portsShowTheStateAtTheStartOfTheTick _ _ _ rfl ht
  refine ⟨_, ht,
    State.resetTick_inCur _, State.resetTick_outCur _, State.resetTick_inReady _, State.resetTick_rxEn _,
    State.resetTick_txEn _, State.resetTick_owMask _, State.resetTick_owData _, State.resetTick_owLmask _,
    State.resetTick_owPhase _, State.resetTick_owOp _, State.resetTick_owPrim _, State.resetTick_owCnt _,
    State.resetTick_owBitn _, State.resetTick_owPresent _, State.resetTick_owRdbit _, ?ports⟩
  case ports =>
    exact ⟨hrx.trans hnorx, htxc.trans hnotxc, step_txWr_of_rst hrst ht, (step_owOe ht).trans s.owOe_eq, hsuspend, hirq,
      hbusy, hpresent⟩

end Sys2Proof.Machine
end

section
/-! SUPPORT. The nine invariants of 10_state.md R47 over a tick: the transport's (INV-1 to INV-3) are kept by the action alone,
the one-wire unit's (INV-4 to INV-8) are told by its phase and kept by acceptance and by the sequencer, and INV-9 holds of every
state. -/

namespace Sys2Proof.Machine

/-! ## The invariants, by the part of the block they are about -/

/-- INV-1 to INV-3 of 10_state.md R47: the cursors and the line in flight. -/
structure State.TransportInv (s : State) : Prop where
  inCurRange : s.inCur.toNat ≤ 126
  outCurRange : s.txEn = false → s.outCur.toNat ≤ 126
  lineTerminated : s.txEn = true → ∃ k, s.outCur.toNat ≤ k ∧ k ≤ 127 ∧ s.outByte k = Config.term

/-- INV-6 during a primitive: a byte command is in one of its eight slots, any other command in its only one. -/
structure State.SlotInRange (s : State) : Prop where
  ofByte : s.owOp.isByteOp = true → s.owBitn.toNat ≤ 7
  ofSingle : s.owOp.isByteOp = false → s.owBitn = 0#4

/-- INV-4 to INV-8 of 10_state.md R47, by the phase. -/
inductive State.OneWireInv (s : State) : Prop where
  | idle (hphase : s.owPhase = .idle) (hcnt : s.owCnt = 0) (hbitn : s.owBitn.toNat ≤ 8)
      (hsingle : s.owOp.isByteOp = false → s.owBitn = 0#4)
  | drive (hphase : s.owPhase = .drive) (hcnt : s.owCnt < s.params.tDrv s.owPrim) (hslot : s.SlotInRange)
      (hprim : s.primAgrees)
  | release (hphase : s.owPhase = .release) (hcnt : s.owCnt < s.params.tRel s.owPrim) (hslot : s.SlotInRange)
      (hprim : s.primAgrees)
  | gap (hphase : s.owPhase = .gap) (hcnt : s.owCnt < s.params.tGap) (hslot : s.SlotInRange)
      (hbyte : s.owOp.isByteOp = true)

/-- INV-9 holds of every state: OW_OE is OW_LMASK or nothing (10_state.md R38). -/
theorem State.owOe_onlyTargeted (s : State) : s.owOe &&& ~~~s.owLmask = 0x00#8 := by
  rw [State.owOe_eq]
  split <;> simp

theorem OwOp.isByteOp_eq_false_iff (op : OwOp) : op.isByteOp = false ↔ op ≠ .sendbyte ∧ op ≠ .recvbyte := by
  rw [← Bool.not_eq_true, OwOp.isByteOp_iff, not_or]

theorem State.SlotInRange.bitn_le {s : State} (h : s.SlotInRange) : s.owBitn.toNat ≤ 7 := by
  cases hop : s.owOp.isByteOp with
  | true => exact h.ofByte hop
  | false => simp [h.ofSingle hop]

theorem Inv.transport {s : State} (h : Inv s) : s.TransportInv := ⟨h.inCurRange, h.outCurRange, h.lineTerminated⟩

theorem Inv.bitn_of_single {s : State} (h : Inv s) (hop : s.owOp.isByteOp = false) : s.owBitn = 0#4 := by
  obtain ⟨hsend, hrecv⟩ := (OwOp.isByteOp_eq_false_iff _).mp hop
  exact h.bitnSingle hsend hrecv

theorem Inv.slotInRange {s : State} (h : Inv s) (hbusy : s.owPhase ≠ .idle) : s.SlotInRange where
  ofByte hop := h.bitnRunning hbusy ((OwOp.isByteOp_iff _).mp hop)
  ofSingle := h.bitn_of_single

theorem Inv.oneWire {s : State} (h : Inv s) : s.OneWireInv := by
  cases hphase : s.owPhase with
  | idle => exact .idle hphase (h.idleCount hphase) h.bitnRange h.bitn_of_single
  | drive => exact .drive hphase (h.driveCount hphase) (h.slotInRange (by simp [hphase])) (h.primOfCommand (.inl hphase))
  | release =>
    exact .release hphase (h.releaseCount hphase) (h.slotInRange (by simp [hphase])) (h.primOfCommand (.inr hphase))
  | gap =>
    exact .gap hphase (h.gapCount hphase) (h.slotInRange (by simp [hphase]))
      ((OwOp.isByteOp_iff _).mpr (h.gapOnlyInBytes hphase))

/-- INV-6 whole, in every phase. -/
theorem State.OneWireInv.bitn {s : State} (h : s.OneWireInv) :
    s.owBitn.toNat ≤ 8 ∧ (s.owPhase ≠ .idle → s.owBitn.toNat ≤ 7) ∧ (s.owOp.isByteOp = false → s.owBitn = 0#4) := by
  cases h with
  | idle hphase _ hbitn hsingle => exact ⟨hbitn, fun hbusy => absurd hphase hbusy, hsingle⟩
  | drive _ _ hslot | release _ _ hslot | gap _ _ hslot =>
    exact ⟨hslot.bitn_le.trans (by decide), fun _ => hslot.bitn_le, hslot.ofSingle⟩

/-- The invariants of the two parts are the nine. What one of them says of a phase is in the case of that phase; in the other
cases its premise is false. -/
theorem Inv.of_parts {s : State} (ht : s.TransportInv) (hw : s.OneWireInv) : Inv s := by
  obtain ⟨hrange, hrunning, hsingle⟩ := hw.bitn
  exact {
    inCurRange := ht.inCurRange
    outCurRange := ht.outCurRange
    lineTerminated := ht.lineTerminated
    idleCount := by cases hw <;> simp_all
    driveCount := by cases hw <;> simp_all
    releaseCount := by cases hw <;> simp_all
    gapCount := by cases hw <;> simp_all
    bitnRange := hrange
    bitnRunning := fun hbusy _ => hrunning hbusy
    bitnSingle := fun hsend hrecv => hsingle ((OwOp.isByteOp_eq_false_iff _).mpr ⟨hsend, hrecv⟩)
    gapOnlyInBytes := by cases hw <;> simp_all [OwOp.isByteOp_iff]
    primOfCommand := by cases hw <;> simp_all
    onlyTargeted := s.owOe_onlyTargeted }

/-! ## The transport over an action -/

theorem State.TransportInv.congr {s t : State} (h : s.TransportInv) (hin : t.inCur = s.inCur) (hout : t.OutputAs s) :
    t.TransportInv where
  inCurRange := by rw [hin]; exact h.inCurRange
  outCurRange := by rw [hout.sending, hout.cursor]; exact h.outCurRange
  lineTerminated := by simpa only [hout.sending, hout.cursor, hout.bytes] using h.lineTerminated

/-- A received byte moves the cursor by one, or back to 0 before it leaves its range (40_transport_receive.md R100). -/
theorem State.TransportInv.receive {s : State} (h : s.TransportInv) (b : Byte) : (s.receive b).TransportInv := by
  have hout : (s.receive b).OutputAs s := by
    obtain ⟨_, _, _, _, hr⟩ := s.receive_frame b
    rw [hr]
    exact ⟨rfl, rfl, fun _ => rfl⟩
  refine ⟨?_, by simpa using h.outCurRange, by simpa only [hout.sending, hout.cursor, hout.bytes] using h.lineTerminated⟩
  by_cases hend : b = 0x0A#8 ∨ s.inCur.toNat + 1 = 127
  · rw [State.receive_of_end hend]
    exact Nat.zero_le _
  · rw [not_or] at hend
    obtain ⟨hb, hc⟩ := hend
    have hcur := h.inCurRange
    rw [State.receive_of_inside hb hc, State.setInCur_inCur, toNat_cursor_succ hcur]
    omega

/-- The push that starts a line has put its terminator in the buffer: the pushed byte itself, or the one forced at index 127
(41_transport_transmit.md R120). -/
theorem State.TransportInv.push {s : State} (h : s.TransportInv) (hidle : s.txEn = false) (b : Byte) :
    (s.push b).TransportInv := by
  have hcur := h.outCurRange hidle
  have hin : (s.push b).inCur.toNat ≤ 126 := by simpa using h.inCurRange
  by_cases hend : b = Config.term ∨ s.outCur.toNat + 1 = 127
  · obtain ⟨hzero, _⟩ := State.push_of_end hend
    refine ⟨hin, by simp [hzero], fun _ => ?_⟩
    by_cases hb : b = Config.term
    · exact ⟨s.outCur.toNat, by simp [hzero], by omega, by simp [State.push_outByte, hb]⟩
    · exact ⟨127, by simp [hzero], le_rfl, by simp [State.push_outByte, hb, hend.resolve_left hb]⟩
  · rw [not_or] at hend
    obtain ⟨hb, hc⟩ := hend
    refine ⟨hin, fun _ => ?_, ?_⟩ <;> rw [State.push_of_inside hb hc]
    · rw [State.setOutCur_outCur, toNat_cursor_succ hcur]
      omega
    · simp [hidle]

/-- A byte that is no terminator is not the one ahead of the cursor, so that the cursor does not pass it
(41_transport_transmit.md R122). -/
theorem State.TransportInv.sendNext {s : State} (h : s.TransportInv) (hsending : s.txEn = true) :
    s.sendNext.TransportInv := by
  by_cases hend : s.outByte s.outCur.toNat = Config.term ∨ s.outCur.toNat = 127
  · rw [State.sendNext_of_end hend]
    exact ⟨h.inCurRange, fun _ => Nat.zero_le _, nofun⟩
  · rw [not_or] at hend
    obtain ⟨hbyte, hlast⟩ := hend
    obtain ⟨k, hk, hk127, hterm⟩ := h.lineTerminated hsending
    have hne : s.outCur.toNat ≠ k := by
      rintro rfl
      exact hbyte hterm
    rw [State.sendNext_of_inside hbyte hlast]
    refine ⟨h.inCurRange, fun hidle => ?_, fun _ => ⟨k, ?_, hk127, hterm⟩⟩
    · simp [hsending] at hidle
    · rw [State.emit_outCur, State.setOutCur_outCur, toNat_cursor_succ (by omega)]
      omega

/-- Only a received byte, a stored push and a taken report move a cursor or write OUT_BUF (10_state.md R20). -/
theorem TickAction.keeps_transportInv {s u : State} {i : Input} (h : TickAction s i u) (hs : s.TransportInv) :
    u.TransportInv := by
  have hbegin : (s.begin i).TransportInv := hs.congr rfl ⟨rfl, rfl, fun _ => rfl⟩
  cases h with
  | push _ hidle => exact hbegin.push hidle _
  | receive => exact hbegin.receive _
  | report _ hready => exact hbegin.sendNext (State.txEn_of_txcReady hready)
  | _ => exact hs.congr rfl ⟨rfl, rfl, fun _ => rfl⟩

/-! ## The one-wire unit over an action -/

theorem State.primAgrees.congr {s t : State} (h : s.primAgrees) (hop : t.owOp = s.owOp) (hprim : t.owPrim = s.owPrim)
    (hbitn : t.owBitn = s.owBitn) (hdata : s.owOp = .sendbyte → t.owData = s.owData) : t.primAgrees := by
  unfold State.primAgrees at h ⊢
  rw [hop, hprim, hbitn]
  refine h.imp_right (.imp_right (.imp_right (.imp_right ?_)))
  rintro ⟨hsend, hwrite⟩
  rw [hdata hsend]
  exact ⟨hsend, hwrite⟩

theorem State.SlotInRange.congr {s t : State} (h : s.SlotInRange) (hop : t.owOp = s.owOp) (hbitn : t.owBitn = s.owBitn) :
    t.SlotInRange := by
  constructor <;> rw [hop, hbitn]
  · exact h.ofByte
  · exact h.ofSingle

theorem State.OneWireInv.congr {s t : State} (h : s.OneWireInv) (hunit : t.OneWireAs s) : t.OneWireInv := by
  rw [show t = s.withTransport t from hunit]
  cases h with
  | idle hphase hcnt hbitn hsingle => exact .idle hphase hcnt hbitn hsingle
  | drive hphase hcnt hslot hprim => exact .drive hphase hcnt (hslot.congr rfl rfl) hprim
  | release hphase hcnt hslot hprim => exact .release hphase hcnt (hslot.congr rfl rfl) hprim
  | gap hphase hcnt hslot hbyte => exact .gap hphase hcnt (hslot.congr rfl rfl) hbyte

/-- An accepted command drives its first primitive (42_onewire_primitives.md R140). -/
theorem State.primAgrees_accept (s : State) {op : OwOp} (hop : op ≠ .noCommand) : (s.accept op).primAgrees := by
  cases op with
  | noCommand => exact absurd rfl hop
  | sendbyte => exact .inr (.inr (.inr (.inr ⟨rfl, rfl⟩)))
  | _ => simp [State.primAgrees, firstPrim]

theorem State.oneWireInv_accept (s : State) {op : OwOp} (hop : op ≠ .noCommand) : (s.accept op).OneWireInv :=
  .drive rfl (Params.one_le_tDrv _ _) ⟨fun _ => Nat.zero_le _, fun _ => rfl⟩ (s.primAgrees_accept hop)

/-- In IDLE an action accepts a command, or leaves what the invariants say of the one-wire unit there: the writes of OW_MASK and
OW_DATA are of elements they do not name (10_state.md R20). -/
theorem TickAction.keeps_oneWireInv {s u : State} {i : Input} (h : TickAction s i u) (hidle : s.owPhase = .idle)
    (hs : s.OneWireInv) : u.OneWireInv := by
  cases h with
  | accept op hop => exact (s.begin i).oneWireInv_accept hop
  | setMask | setData =>
    cases hs with
    | idle hphase hcnt hbitn hsingle => exact .idle hphase hcnt hbitn hsingle
    | drive hphase | release hphase | gap hphase => simp [hidle] at hphase
  | push =>
    obtain ⟨_, _, _, _, _, hp⟩ := (s.begin i).push_frame i.hWdata
    exact hs.congr (by rw [hp]; rfl)
  | receive =>
    obtain ⟨_, _, _, _, hr⟩ := (s.begin i).receive_frame i.rxData
    exact hs.congr (by rw [hr]; rfl)
  | report =>
    obtain ⟨_, _, _, _, _, hn⟩ := (s.begin i).sendNext_frame
    exact hs.congr (by rw [hn]; rfl)
  | _ => exact hs.congr rfl

/-! ## The one-wire unit over a sequencer tick -/

/-- A tick of DRIVE counts, or begins RELEASE (42_onewire_primitives.md R141). -/
theorem State.oneWireInv_driveTick {s : State} (hphase : s.owPhase = .drive) (hcnt : s.owCnt < s.params.tDrv s.owPrim)
    (hslot : s.SlotInRange) (hprim : s.primAgrees) : s.driveTick.OneWireInv := by
  unfold State.driveTick
  split
  · exact .release rfl (Params.one_le_tRel _ _) (hslot.congr rfl rfl) hprim
  · next hmore => exact .drive hphase (Nat.lt_of_le_of_ne hcnt hmore) (hslot.congr rfl rfl) hprim

/-- The primitive of the slot after a gap is the one its command asks for (43_onewire_bytes.md R170 to R172). -/
theorem State.primAgrees_of_slotPrim {s : State} (hbyte : s.owOp.isByteOp = true)
    (hprim : s.owPrim = slotPrim s.owOp s.owData s.owBitn) : s.primAgrees := by
  rcases (OwOp.isByteOp_iff _).mp hbyte with hop | hop <;> rw [hop] at hprim
  · exact .inr (.inr (.inr (.inr ⟨hop, hprim⟩)))
  · exact .inr (.inr (.inr (.inl ⟨.inr hop, hprim⟩)))

/-- A tick of GAP counts, or begins the next slot (43_onewire_bytes.md R172). -/
theorem State.oneWireInv_gapTick {s : State} (hphase : s.owPhase = .gap) (hcnt : s.owCnt < s.params.tGap)
    (hslot : s.SlotInRange) (hbyte : s.owOp.isByteOp = true) : s.gapTick.OneWireInv := by
  unfold State.gapTick
  split
  · exact .drive rfl (Params.one_le_tDrv _ _) (hslot.congr rfl rfl) (State.primAgrees_of_slotPrim hbyte rfl)
  · next hmore => exact .gap hphase (Nat.lt_of_le_of_ne hcnt hmore) (hslot.congr rfl rfl) hbyte

/-- At the end of a primitive a byte command goes on to its gap, or is done after its eighth slot; any other command is done
(42_onewire_primitives.md R143). -/
theorem State.SlotInRange.endPrimitive {s : State} (h : s.SlotInRange) : s.endPrimitive.OneWireInv := by
  obtain ⟨hop, _⟩ := s.endPrimitive_keeps_command
  have hcnt := s.endPrimitive_owCnt
  cases hkind : s.owOp.isByteOp with
  | false =>
    obtain ⟨hbitn, hidle⟩ := State.endPrimitive_of_not_byteOp hkind
    rw [h.ofSingle hkind] at hbitn
    exact .idle hidle hcnt (by simp [hbitn]) fun _ => hbitn
  | true =>
    obtain ⟨hbitn, hnext⟩ := State.endPrimitive_of_byteOp hkind
    have hslots := h.ofByte hkind
    have hbyte : s.endPrimitive.owOp.isByteOp = true := hop ▸ hkind
    have hsingle : s.endPrimitive.owOp.isByteOp = false → s.endPrimitive.owBitn = 0#4 := by simp [hkind]
    split at hnext
    · next hlast => exact .idle hnext hcnt (by simp [hbitn, hlast]) hsingle
    · next hmore =>
      refine .gap hnext (hcnt ▸ Params.one_le_tGap _) ⟨fun _ => ?_, hsingle⟩ hbyte
      rw [hbitn]
      bv_omega

/-- In OW.SENDBYTE no sample writes the data byte, which its primitives are chosen by (43_onewire_bytes.md R170, R171). -/
theorem State.releaseTick_owData_of_sendbyte {s : State} (hop : s.owOp = .sendbyte) (v : Byte) :
    (s.releaseTick v).owData = s.owData := by
  obtain ⟨_, _, hdata⟩ := s.releaseTick_results v
  simpa [hop] using hdata

/-- A tick of RELEASE counts, or ends the primitive (42_onewire_primitives.md R142). -/
theorem State.oneWireInv_releaseTick {s : State} (hphase : s.owPhase = .release)
    (hcnt : s.owCnt < s.params.tRel s.owPrim) (hslot : s.SlotInRange) (hprim : s.primAgrees) (v : Byte) :
    (s.releaseTick v).OneWireInv := by
  by_cases hend : s.owCnt + 1 = s.params.tRel s.owPrim
  · obtain ⟨_, hop, hbitn⟩ := s.sampleAtItsTick_keeps v
    rw [State.releaseTick_of_last hend]
    exact (hslot.congr hop hbitn).endPrimitive
  · obtain ⟨hsame, hcount, hbitn⟩ := State.releaseTick_of_more hend v
    obtain ⟨hop, hprim', _⟩ := s.releaseTick_keeps v
    obtain ⟨_, _, _, _, _, _, _, _, _, _, hparams, _⟩ := s.owTick_keeps .release v
    have hbelow : (s.releaseTick v).owCnt < (s.releaseTick v).params.tRel (s.releaseTick v).owPrim := by
      rw [hcount, hprim', show (s.releaseTick v).params = s.params from hparams]
      exact Nat.lt_of_le_of_ne hcnt hend
    exact .release (hsame.trans hphase) hbelow (hslot.congr hop hbitn)
      (hprim.congr hop hprim' hbitn fun hsend => State.releaseTick_owData_of_sendbyte hsend v)

theorem State.OneWireInv.owTick {s : State} (h : s.OneWireInv) (v : Byte) : (s.owTick s.owPhase v).OneWireInv := by
  cases h with
  | idle hphase hcnt hbitn hsingle => rw [hphase]; exact .idle hphase hcnt hbitn hsingle
  | drive hphase hcnt hslot hprim => rw [hphase]; exact State.oneWireInv_driveTick hphase hcnt hslot hprim
  | release hphase hcnt hslot hprim => rw [hphase]; exact State.oneWireInv_releaseTick hphase hcnt hslot hprim v
  | gap hphase hcnt hslot hbyte => rw [hphase]; exact State.oneWireInv_gapTick hphase hcnt hslot hbyte

/-! ## The invariants over a tick -/

/-- A tick that starts busy is a sequencer tick of the one-wire unit; one that starts in IDLE is its action (00_scope.md R7). -/
theorem step_keeps_oneWireInv {s t : State} (hrst : (s.inputAt 0).rst = false) (h : step s = .next t)
    (hs : s.OneWireInv) : t.OneWireInv := by
  by_cases hidle : s.owPhase = .idle
  · exact (step_of_idle hrst hidle h).keeps_oneWireInv hidle hs
  · exact (hs.owTick _).congr (step_oneWire hrst hidle h)

theorem step_keeps_transportInv {s t : State} (hrst : (s.inputAt 0).rst = false) (h : step s = .next t)
    (hs : s.TransportInv) : t.TransportInv := by
  obtain ⟨u, hu, rfl⟩ := step_tickAction hrst h
  exact (hu.keeps_transportInv hs).congr (by simp) (u.outputAs_owTick _ _)

/-- The invariants hold where both sides have their reset values (10_state.md R48). -/
theorem inv_of_reset_values {s : State} (hin : s.inCur = 0#7) (hout : s.outCur = 0#7) (hidle : s.txEn = false)
    (hphase : s.owPhase = .idle) (hcnt : s.owCnt = 0) (hbitn : s.owBitn = 0#4) : Inv s :=
  .of_parts ⟨by simp [hin], by simp [hout], by simp [hidle]⟩ (.idle hphase hcnt (by simp [hbitn]) fun _ => hbitn)

/-- Settles O12. -/
theorem invariantsHoldAtReset : Obligations.InvariantsHoldAtReset :=
  inv_of_reset_values rfl rfl rfl rfl rfl rfl

/-- Settles O13: a reset tick ends in the reset values; any other tick keeps the invariants of each part. -/
theorem everyTickKeepsTheInvariants : Obligations.EveryTickKeepsTheInvariants := by
  intro s t hs h
  cases hrst : (s.inputAt 0).rst with
  | true =>
    rw [step_of_rst hrst] at h
    cases h
    exact inv_of_reset_values rfl rfl rfl rfl rfl rfl
  | false => exact .of_parts (step_keeps_transportInv hrst h hs.transport) (step_keeps_oneWireInv hrst h hs.oneWire)

end Sys2Proof.Machine
end

section
/-! SUPPORT. Two choices of the model: what the buffers read as after reset (log 4, log 13), and an event operation met where its
event may not occur (log 10). -/

namespace Sys2Proof.Machine

/-! ## The buffers after a reset tick -/

/-- A reset tick empties both lists and counts one more reset, so that every byte reads as the draw for it. -/
theorem State.resetTick_bytes (s : State) (k : Nat) :
    s.resetTick.inByte k = Config.unwritten .input (s.epoch + 1) k ∧
    s.resetTick.outByte k = Config.unwritten .output (s.epoch + 1) k :=
  ⟨rfl, rfl⟩

/-- Settles O11. -/
theorem resetTickDrawsTheBuffersAnew : Obligations.ResetTickDrawsTheBuffersAnew := by
  refine ⟨fun _ => rfl, fun _ => rfl, fun s hrst => ?_⟩
  exact ⟨_, step_of_rst hrst, State.resetTick_params _, State.resetTick_epoch _, fun k => (State.resetTick_bytes _ k).1,
    fun k => (State.resetTick_bytes _ k).2⟩

/-! ## Events that may not occur -/

theorem exec_rxEvent_of_closed {s : State} (h : ¬ s.rxOpen = true) (b : Byte) : exec (.rxEvent b) s = .next s := by
  simp [exec, execRxEvent, h]

theorem exec_txDone_of_closed {s : State} (h : ¬ s.txOpen = true) : exec .txDone s = .next s := by
  simp [exec, execTxDone, h]

/-- Settles O58: in each of the named states the event is closed. -/
theorem eventsThatMayNotOccurChangeNothing : Obligations.EventsThatMayNotOccurChangeNothing := by
  refine ⟨fun s b hclosed => exec_rxEvent_of_closed (fun hopen => ?_) b,
    fun s hclosed => exec_txDone_of_closed fun hopen => ?_⟩
  · obtain ⟨hen, hready, hdrive, hrelease⟩ := s.rxOpen_iff.mp hopen
    simp [hen, hready, hdrive, hrelease] at hclosed
  · obtain ⟨hen, hdrive, hrelease⟩ := s.txOpen_iff.mp hopen
    simp [hen, hdrive, hrelease] at hclosed

end Sys2Proof.Machine
end
